-- ==== Sys2Proof/Word.lean ====
section
/-! DEFINITION. The two word types of the machine: the byte, the addressable unit (R70), and the 16-bit word of addresses,
register pairs and immediates (R21, R70, R116). Everything computed from them stands in the files under Machine/. -/

namespace Sys2Proof

/-- The 8-bit unit of memory, of the general registers and of port data (R21, R70, R82). -/
abbrev Byte := BitVec 8

/-- A 16-bit address, register pair, port address or immediate (R21, R70, R82, R116). -/
abbrev Word := BitVec 16

end Sys2Proof
end

