-- ==== Sys2Proof/Machine/Bits.lean ====
section
/-! DEFINITION. Bit-field, byte-order and sign-extension helpers of the notation of R11 and R12. -/

namespace Sys2Proof.Machine

/-- `hi(w)` of R11: bits 15 to 8. -/
def hiByte (w : Word) : Byte := w.extractLsb' 8 8

/-- `lo(w)` of R11: bits 7 to 0. -/
def loByte (w : Word) : Byte := w.extractLsb' 0 8

/-- `h ++ l` of R11: the word with high byte `h` and low byte `l`. -/
def joinBytes (h l : Byte) : Word := h ++ l

/-- `sext_8(d)` of R11, at 16 bits (R117, R118). -/
def signExtend8 (d : Byte) : Word := d.signExtend 16

/-- The mask `m` when `c` holds, else 0: the `(m if c else 0)` of the flag formulas of R33 to R37. -/
def bitIf (c : Bool) (m : Byte) : Byte := if c then m else 0

/-- Bits 7 to 6 of an opcode byte, `x` of R111. -/
def fieldX (op : Byte) : Nat := op.toNat / 64

/-- Bits 5 to 3 of an opcode byte, `y` of R111. -/
def fieldY (op : Byte) : BitVec 3 := op.extractLsb' 3 3

/-- Bits 2 to 0 of an opcode byte, `z` of R111. -/
def fieldZ (op : Byte) : BitVec 3 := op.extractLsb' 0 3

/-- Bits 5 to 4 of an opcode byte, `p` of R111. -/
def fieldP (op : Byte) : BitVec 2 := op.extractLsb' 4 2

/-- Bit 3 of an opcode byte, `q` of R111. -/
def fieldQ (op : Byte) : Bool := op.getLsbD 3

end Sys2Proof.Machine
end

