-- ==== Sys2Proof/Config.lean ====
section
/-! DEFINITION. The implementation parameters of R9 as plain data, their defaults and the constraints of R10, and the free
values: what the spec leaves open, as constants without a body, so that nothing can be proved of them. -/

namespace Sys2Proof

/-- `MACHINE` of R9: variant A (hardware NMI) or variant B (software flip-flops). -/
inductive Variant where
  | nmiVariant | ffVariant
  deriving DecidableEq, Repr

/-- `FRAME_SYNC` of R9. -/
inductive FrameSync where
  | off | on | interlaced
  deriving DecidableEq, Repr

/-- One entry of the page table (R38): the physical pointer and the `writable` attribute. -/
structure PageEntry where
  base     : Nat
  writable : Bool
  deriving DecidableEq, Repr

/-- The page table of R38: 64 entries. -/
abbrev PageTable := Vector PageEntry 64

/-- The sync events a port access can raise: the operations of R613, R614, R615 and R621. The first four belong to variant A, the
last two to variant B. -/
inductive SyncAct where
  | vsyncSet | vsyncClear | nmiOn | nmiOff | syncOn | syncOff
  deriving DecidableEq, Repr

/-- The two kinds of port access (R503, R504). -/
inductive PortAccess where
  | read | write
  deriving DecidableEq, Repr

/-- One row of `PORT_DECODE`: an access of this kind to a port whose bits under `mask` are `value` raises `act`; with `generatorOff`,
only while `NMI_GEN_ON = 0`. -/
structure PortRule where
  access       : PortAccess
  mask         : Word
  value        : Word
  generatorOff : Bool
  act          : SyncAct
  deriving DecidableEq, Repr

/-- `LATCH_FN` of R9 (D14): the equations of R620 to R623, or others. -/
inductive LatchRule where
  | standard | other
  deriving DecidableEq, Repr

/-- The latches and the pulse-length accumulator of variant B (R41, R43). -/
structure Latches where
  l1      : Bool
  l2      : Bool
  l3      : Bool
  l2Len   : BitVec 32
  syncLen : BitVec 32
  deriving DecidableEq, Repr, Inhabited

/-- What one T-state does to the latches: their new values, and whether a sync pulse begins or ends (R620). -/
structure LatchStep where
  latches : Latches
  rises   : Bool
  falls   : Bool
  deriving DecidableEq, Repr, Inhabited

/-- A `ROM_VARIANT` of R9 as its image, if there is one (R830), and the number of bytes the image has. -/
structure RomVariant where
  bytes : Nat
  image : Option (List Byte)
  deriving DecidableEq, Repr

/-- The inputs of a page-table build (R9, R75): `RAM_SIZE` in KB, `LOW_RAM`, and the `ROM_VARIANT` when it changes. -/
structure MemoryInputs where
  ramSize : Nat
  lowRam  : Bool
  rom     : Option RomVariant
  deriving DecidableEq, Repr

/-- The parameters of R9 that are numbers, toggles or tables. -/
structure Config where
  /-- `MACHINE`. -/
  machine         : Variant
  /-- `M1NOT` (R153). -/
  m1not           : Bool
  /-- `UDG` (R152). -/
  udg             : Bool
  /-- `COLOUR` (R48, R151). -/
  colour          : Bool
  /-- `FIELD_MODULUS` (R160). -/
  fieldModulus    : Nat
  /-- `X_PER_T` (R602). -/
  xPerT           : Nat
  /-- `LINE_TS` (R610). -/
  lineTs          : Nat
  /-- `HS_OFFSET` (R610). -/
  hsOffset        : Nat
  /-- `HS_WIDTH` (R611). -/
  hsWidth         : Nat
  /-- `VSYNC_THRESHOLD` (R615, R625). -/
  vsyncThreshold  : Nat
  /-- `LINE_MAX` (R606). -/
  lineMax         : Nat
  /-- `FIELD_MAX_LINES` (R607). -/
  fieldMaxLines   : Nat
  /-- `HS_WIDTH_B` (R622). -/
  hsWidthB        : Nat
  /-- `LATCH_FN` (R620 to R623): the default equations, or the free function `Config.latchFn`. DESIGN CHOICE of this
  form (log entry 11). -/
  latch           : LatchRule
  /-- `PORT_DECODE` (R505, R506): the rows that match an access act in the order of the table. DESIGN CHOICE of this
  form (log entry 11). -/
  portDecode      : List PortRule
  /-- `INT_GEN_FN` (R635): `some v` is the constant `v`, `none` the free function `Config.intGenFn`. -/
  intGen          : Option Bool
  /-- `BUF_W`, pixels (R47). -/
  bufW            : Nat
  /-- `BUF_H`, pixels (R47). -/
  bufH            : Nat
  /-- `STRIDE`, bytes in a row (R47). -/
  stride          : Nat
  /-- `WIN_X0` (R603). -/
  winX0           : Int
  /-- `WIN_Y0` (R603). -/
  winY0           : Int
  /-- `PIX_OFFSET_X` (R151). -/
  pixOffsetX      : Int
  /-- `POOL_CAP` (R700). -/
  poolCap         : Nat
  /-- `FRAME_SYNC` (R640). -/
  frameSync       : FrameSync
  /-- `SYNC_LOSS_BLACK` (R607). -/
  syncLossBlack   : Bool
  /-- `SOUND_PORT` (R507): a port is sound-relevant when its bits under some mask equal the value beside it. -/
  soundPorts      : List (Word × Word)
  /-- `RAM_SIZE`, in KB (R75). -/
  ramSize         : Nat
  /-- `LOW_RAM` (R75). -/
  lowRam          : Bool
  /-- The number of bytes of the image of `ROM_VARIANT`, which lies at the physical addresses from 0 on (R72, R75). -/
  romBytes        : Nat
  /-- The number of bytes of `PHYS` (R38, R830). -/
  physBytes       : Nat
  /-- `PT_INIT` (R75). -/
  ptInit          : PageTable
  deriving DecidableEq, Repr

namespace Config

/-! ### Values R9 fixes -/

/-- `INT_BUS`, the byte on the data bus at interrupt acknowledge (R9, R810). -/
def intBus : Byte := 0xFF

/-- `MAX_FREE` (R9). -/
def maxFree : Nat := 4

/-- `MAX_PEND` (R9). -/
def maxPend : Nat := 2

/-- `SYNC_FILL` (R9): ink. -/
def syncFill : Bool := true

/-- `PAGE_SIZE` (R9). -/
def pageSize : Nat := 1024

/-! ### The default page map (R75) -/

/-- The physical address at which the model lays the RAM of the default map. DESIGN CHOICE (log entry 5). -/
def ramBase : Nat := 8192

/-- The physical address at which the model lays the low RAM of the default map. DESIGN CHOICE (log entry 5). -/
def lowRamBase : Nat := 24576

/-- The entry of page `p` in pages 0 to 31 of the default map: `romPages` is 8, or 4 for a 4 KB ROM variant (repeated
twice), `ramPages` is `RAM_SIZE` in KB (the pages are repeated to fill sixteen). -/
def lowerPage (romPages ramPages : Nat) (lowRam : Bool) (p : Nat) : PageEntry :=
  if p < 8 then ⟨pageSize * (p % romPages), false⟩
  else if p < 16 then
    if lowRam then ⟨lowRamBase + pageSize * (p - 8), true⟩ else ⟨pageSize * ((p - 8) % romPages), false⟩
  else ⟨ramBase + pageSize * ((p - 16) % ramPages), true⟩

/-- The default page map of R75: the upper 32 pages mirror the lower 32. -/
def defaultPages (romPages ramPages : Nat) (lowRam : Bool) : PageTable :=
  ⟨((List.range 64).map fun p => lowerPage romPages ramPages lowRam (p % 32)).toArray, by simp⟩

/-! ### The default port decoding (R505, R506) -/

/-- The default `PORT_DECODE`: a read with port bit 0 clear raises the sync, in variant A only while the generator is off (R505); a
write ends it, and in variant A bit 1 clear turns the generator off and then bit 0 clear turns it on (R506). -/
def defaultPorts : List PortRule :=
  [⟨.read, 1, 0, true, .vsyncSet⟩, ⟨.read, 1, 0, false, .syncOn⟩, ⟨.write, 0, 0, false, .vsyncClear⟩,
    ⟨.write, 2, 0, false, .nmiOff⟩, ⟨.write, 1, 0, false, .nmiOn⟩, ⟨.write, 0, 0, false, .syncOff⟩]

/-- The parameters at the defaults of R9. Where R9 leaves a parameter OPEN with no default value, the value here is the model's own.
DESIGN CHOICE (log entry 4): `MACHINE`, the buffer geometry and window, `RAM_SIZE` = 16 KB, `LOW_RAM` = false (these as in the
conventions of spec/95_test_vectors.md), `ROM_VARIANT` = an 8 KB ROM, `FRAME_SYNC` off, and the places in and the 32768 bytes of
`PHYS` (log entry 5). -/
def default : Config where
  machine := .nmiVariant
  m1not := false
  udg := false
  colour := false
  fieldModulus := 64170
  xPerT := 2
  lineTs := 207
  hsOffset := 0
  hsWidth := 16
  vsyncThreshold := 500
  lineMax := 828
  fieldMaxLines := 400
  hsWidthB := 20
  latch := .standard
  portDecode := defaultPorts
  intGen := some true
  bufW := 320
  bufH := 240
  stride := 40
  winX0 := 0
  winY0 := 0
  pixOffsetX := 0
  poolCap := 4
  frameSync := .off
  syncLossBlack := true
  soundPorts := []
  ramSize := 16
  lowRam := false
  romBytes := 8192
  physBytes := 32768
  ptInit := defaultPages 8 16 false

/-! ### The constraints of R10 and R830 -/

/-- The pages of a table lie inside `PHYS` (R830, `page_table`). -/
def pagesInside (c : Config) (pt : PageTable) : Bool :=
  pt.toList.all fun e => e.base + pageSize ≤ c.physBytes

/-- No page whose storage meets the ROM image is writable (R72 (b)). -/
def romProtected (c : Config) (pt : PageTable) : Bool :=
  pt.toList.all fun e => !(e.writable && decide (e.base < c.romBytes))

/-- A table request with the `writable` attribute of every ROM page forced false: "ROM pages are never writable regardless of
requested attribute changes" (R72 (b)). -/
def protectRom (c : Config) (pt : PageTable) : PageTable :=
  ⟨(pt.toList.map fun e => if e.base < c.romBytes then ⟨e.base, false⟩ else e).toArray, by simp⟩

/-- The pool capacity is valid: `1 <= POOL_CAP <= MAX_FREE` (R10). -/
def poolCapOk (c : Config) : Bool := 1 ≤ c.poolCap && c.poolCap ≤ maxFree

/-- The timing and geometry constraints of R9, R10 and R830: the field modulus exceeds the largest cost of a step without
extra index prefixes, positive geometry, the pulse inside the line. -/
def parametersOk (c : Config) : Bool :=
  23 < c.fieldModulus && 0 < c.bufW && 0 < c.bufH && c.bufW ≤ 8 * c.stride && 0 < c.lineTs && c.hsOffset < c.lineTs &&
  0 < c.hsWidth && c.hsWidth < c.lineTs && 0 < c.xPerT && 0 < c.lineMax && 0 < c.fieldMaxLines && 0 < c.vsyncThreshold &&
  0 < c.hsWidthB

/-! ### Free values: constants without a body -/

/-- `PortIn` of R503: the byte the outside world answers at the n-th draw, for a port. -/
opaque portIn : Nat → Word → Byte

/-- The `any` of R14, at the n-th draw: undefined flag bits (R323, R324, R421, R512, R518). -/
opaque freeByte : Nat → Byte

/-- `PATTERN_FN` while `UDG` is on (R152), at the n-th draw: I, the fetched byte, `ROW`. -/
opaque udgPattern : Nat → Byte → Byte → BitVec 3 → Byte

/-- `ATTR_FN` of R151 and D48, at the n-th draw: I, the fetched byte, `ROW`, the address. -/
opaque attrFn : Nat → Byte → Byte → BitVec 3 → Word → Byte

/-- `LATCH_FN` where it is not the default (R9, R620): what one T-state makes of the latches and the accumulator. -/
opaque latchFn : Latches → LatchStep

/-- `INT_GEN_FN` of R635 where it is not the constant of `Config.intGen`: a function of the fourteen sync-state fields of
R773, in that rule's order. -/
opaque intGenFn : List Int → Bool

end Config

end Sys2Proof
end

