-- ==== Sys2Proof/Machine/SyncFn.lean ====
section
/-! DEFINITION. The two functions of the sync state that both the reset values (R51) and the tick rules need: the level of
variant A's horizontal pulse (R611) and the generator signal of the maskable interrupt (R635). -/

namespace Sys2Proof.Machine

/-- The level of the horizontal pulse at a value of `HS_COUNTER`: 1 when `(HS_COUNTER - HS_OFFSET) mod LINE_TS < HS_WIDTH`
(R610, R611). -/
def hsyncLevel (c : Config) (counter : Nat) : Bool :=
  decide (((counter : Int) - (c.hsOffset : Int)) % (c.lineTs : Int) < (c.hsWidth : Int))

/-- `INT_GEN_FN` of the fourteen sync-state fields (R635): the configured constant, or the free function. -/
def intGenOf (c : Config) (fields : List Int) : Bool :=
  match c.intGen with
  | some v => v
  | none => Config.intGenFn fields

end Sys2Proof.Machine
end

