-- ==== Sys2Proof/Machine/State.lean ====
section
/-! DEFINITION. The state of the block as plain data: the CPU register file, the page table and physical storage, the
counters, the raster and sync state, the frame-buffer pool and pixel storage (R20 to R48, R700 to R703); the parameters of
R9, which no instruction writes; the outputs and the pending inputs; the faults and refusals; and the state after reset (R51, R703). -/

namespace Sys2Proof.Machine

/-! ### Memory -/

/-- Storage as a list of (address, byte) pairs: addresses strictly rising, no entry equal to what an unlisted address reads as
(`unlistedByte`). Used for `PHYS`, for each `PIX[h]` and for each `CHROMA[h]`. -/
abbrev Memory := List Host.Cell

/-- What an unlisted address reads as. R870 leaves power-on RAM `any` and the ROM image comes from outside: for `PHYS` the value
is a DESIGN CHOICE, unsafe (log entry 3); for pixel and chroma storage it is R703's own 0x00. -/
def unlistedByte : Byte := 0

/-- The canonical form of a memory: addresses strictly rising from `lo` on, no entry equal to `unlistedByte`. -/
def Memory.wfFrom : Nat → Memory → Bool
  | _, [] => true
  | lo, (k, v) :: rest => decide (lo ≤ k) && v != unlistedByte && Memory.wfFrom (k + 1) rest

/-- The canonical form of a memory. -/
def Memory.wf (m : Memory) : Bool := m.wfFrom 0

/-! ### CPU register file (R20 to R31) -/

/-- `IM`, the interrupt mode (R29). -/
inductive IntMode where
  | im0 | im1 | im2
  deriving DecidableEq, Repr

/-- `PFX`, the prefix state (R30). -/
inductive Pfx where
  | none | ix | iy
  deriving DecidableEq, Repr

/-- The register file: the primary set (R21), the shadow set (`a2` to `l2`, R22), `IX`, `IY` (R23), `SP` (R24), `PC` (R25),
`I` (R26), `R` (R27), `IFF1`, `IFF2` (R28), `IM` (R29), `PFX` (R30), `HALTED` and `EI_DELAY` (R31). -/
structure Cpu where
  a : Byte
  f : Byte
  b : Byte
  c : Byte
  d : Byte
  e : Byte
  h : Byte
  l : Byte
  a2 : Byte
  f2 : Byte
  b2 : Byte
  c2 : Byte
  d2 : Byte
  e2 : Byte
  h2 : Byte
  l2 : Byte
  ix : Word
  iy : Word
  sp : Word
  pc : Word
  i : Byte
  r : Byte
  iff1 : Bool
  iff2 : Bool
  im : IntMode
  pfx : Pfx
  halted : Bool
  eiDelay : Bool
  deriving DecidableEq, Repr

/-! ### Raster and sync state (R40 to R44) -/

/-- The raster position (R40), the sync state common to both variants (R41), of variant A (R42) and of variant B (R43), and the
interrupt request state (R44). `rasterX`, `rasterY`, `vsX` and `vsY` are signed 32-bit integers (R40, R41): `toInt` reads
them, and a sum keeps its low 32 bits, as the count of `l2Len` does. DEDUCED from R11 (log entry 14). -/
structure Ula where
  rasterX    : BitVec 32
  rasterY    : BitVec 32
  row        : BitVec 3
  syncLen    : BitVec 32
  vsX        : BitVec 32
  vsY        : BitVec 32
  hsyncState : Bool
  vsyncState : Bool
  hsCounter  : Nat
  nmiGenOn   : Bool
  nmiPending : Bool
  l1         : Bool
  l2         : Bool
  l3         : Bool
  l2Len      : BitVec 32
  rowHold    : Bool
  intGen     : Bool
  deriving DecidableEq, Repr

/-- The answers of an `EmuCycle` (R650). -/
structure SyncEvent where
  lineBoundary  : Bool
  fieldBoundary : Bool
  rowStale      : Bool
  inWindow      : Bool
  deriving DecidableEq, Repr

/-- The record `EV` at the start of an `EmuCycle` (R140). -/
def SyncEvent.none : SyncEvent := ⟨false, false, false, false⟩

/-! ### Frame-buffer pool (R700 to R703) -/

/-- `BLANK_COLOUR` (R702). -/
inductive BlankColour where
  | black | white
  deriving DecidableEq, Repr

/-- `LOCK` (R702, R704). -/
inductive LockState where
  | free | emu | ren
  deriving DecidableEq, Repr

/-- The pool's state variables (R702). `out` is a set of handles: a rising list without repeats. `chromaInUse[h]` is
`CHROMA_INUSE[h]` (R48). -/
structure Pool where
  free        : List Nat
  pend        : List Nat
  cur         : Option Nat
  prev        : Option Nat
  out         : List Nat
  shown       : Nat
  blanked     : Bool
  blankColour : BlankColour
  interlace   : Bool
  frameParity : Bool
  noSkip      : Bool
  lock        : LockState
  renderReady : Bool
  chromaInUse : List Bool
  deriving DecidableEq, Repr

/-! ### Outputs and inputs -/

/-- The output event `SoundWrite(port, v, FRAMES, TS)` (R507). -/
structure SoundWrite where
  port   : Word
  value  : Byte
  frames : BitVec 32
  ts     : Nat
  deriving DecidableEq, Repr

/-- What `current()` returned to REN (R720). -/
structure RenView where
  handle      : Nat
  blanked     : Bool
  blankColour : BlankColour
  chromaInUse : Bool
  deriving DecidableEq, Repr

/-- A transition of the render context (R8, R745). The schedule may hold any of them at any time (log entry 6). -/
inductive RenOp where
  /-- `current()` (R720). -/
  | current
  /-- `advance_frame()` (R725, R726). -/
  | advanceFrame
  /-- The one-shot `RENDER_READY <- 1` (R745). -/
  | setReady
  deriving DecidableEq, Repr

/-- A HOST action between two `EmuCycle`s (R165, R887). -/
inductive HostOp where
  /-- Machine reset (R871). -/
  | machineReset
  /-- A page-table rebuild to a table (R75). -/
  | rebuildPages (requested : PageTable)
  /-- A change of `RAM_SIZE`, `LOW_RAM` or `ROM_VARIANT`, which rebuilds the page table (R75): to the default map, or to the map a
  board with another one gives. -/
  | changeMemory (inputs : MemoryInputs) (map : Option PageTable)
  /-- A change of the toggles `M1NOT`, `UDG`, `COLOUR` (R887). -/
  | setToggles (m1not udg colour : Bool)
  /-- `save()` into a sink that takes `sinkTakes` bytes before it fails (R775). -/
  | save (sinkTakes : Nat)
  /-- `load()` of the bytes the source delivers (R776). -/
  | load (bytes : List Byte)
  deriving DecidableEq, Repr

/-- A pending action of an agent other than EMU. -/
inductive Action where
  | ren (op : RenOp)
  | host (op : HostOp)
  deriving DecidableEq, Repr

/-- What the last snapshot operation reported to HOST (R775 to R777). -/
inductive HostResult where
  | none
  | saved (bytes : List Byte)
  | saveFailed
  | loaded
  | loadFailed
  deriving DecidableEq, Repr

/-! ### The state -/

/-- The state of the whole block. -/
structure State where
  /-- The parameters of R9; only HOST changes a toggle, the page map or its inputs (R75). -/
  cfg          : Config
  /-- The register file (R20 to R31). -/
  cpu          : Cpu
  /-- `PT` (R38). -/
  pt           : PageTable
  /-- `PHYS` (R38). -/
  phys         : Memory
  /-- `TS` (R39). -/
  ts           : Nat
  /-- `FRAMES` (R39). -/
  frames       : BitVec 32
  /-- Raster, sync and interrupt request state (R40 to R44). -/
  ula          : Ula
  /-- `DRAW` (R45). -/
  draw         : Option Nat
  /-- The pool (R46, R702). -/
  pool         : Pool
  /-- `PIX[h]` (R47). -/
  pix          : List Memory
  /-- `CHROMA[h]` (R48). -/
  chroma       : List Memory
  /-- The number of T-states the last `step()` returned (R141). -/
  cycles       : Nat
  /-- The record `EV` of the last `EmuCycle` (R650). -/
  ev           : SyncEvent
  /-- The sound events since the last field tick, oldest first (R507). -/
  soundLog     : List SoundWrite
  /-- The list flushed at the last field tick (R161). -/
  soundFlushed : List SoundWrite
  /-- What `current()` last returned to REN (R720). -/
  renView      : Option RenView
  /-- What the last snapshot operation reported (R775, R776). -/
  hostResult   : HostResult
  /-- Pending actions of REN and HOST, each performed by one step before EMU goes on. The model's own (log entry 6). -/
  agenda       : List Action
  /-- For each coming pool operation of EMU, the pool operations REN performs just before it. The model's own (log entry 6). -/
  renBetween   : List (List RenOp)
  /-- How many free values have been drawn. The model's own (log entry 7). -/
  freeCount    : Nat
  deriving DecidableEq, Repr

/-! ### Stops -/

/-- What a configuration error names (R830). -/
inductive ConfigWhat where
  | poolCapacity | romMissing | pageTable | parameter | poolExhausted
  deriving DecidableEq, Repr

/-- Why the machine stops. -/
inductive Fault where
  /-- Raised by power-on initialisation, by a page-table rebuild outside `PHYS` and by `acquire_free` on exhaustion: "fatal", the
  machine has no next state (R830, R834). Safe. -/
  | configError (what : ConfigWhat)
  /-- Raised by `submit` of a handle that is not outstanding (R715, R831). Safe; unreachable from a well-formed state. -/
  | poolRole
  /-- Raised by an index prefix all of whose 65536 following bytes are index prefixes: `step()` never returns (R148). Safe. -/
  | endlessPrefixChain
  /-- Raised by a pool operation called while `LOCK` is held: it waits for ever (R704, R885). Safe; unreachable, since every
  operation releases the lock. -/
  | lockHeld
  deriving DecidableEq, Repr

/-- Why an instruction has no meaning. -/
inductive Refusal where
  /-- An instruction of the table that exec gives no meaning yet. Safe. Raised by no arm of this model. -/
  | notModelled (mnemonic : String)
  /-- Raised where bytes handed to the decoder hold no whole instruction. Safe; unreachable, since a fetch hands it four bytes and
  every such sequence decodes (R125). -/
  | noInstruction
  deriving DecidableEq, Repr

/-! ### Reset (R51, R52, R703, R870) -/

/-- The register file after reset (R51). -/
def Cpu.reset : Cpu where
  a := 0
  f := 0
  b := 0
  c := 0
  d := 0
  e := 0
  h := 0
  l := 0
  a2 := 0
  f2 := 0
  b2 := 0
  c2 := 0
  d2 := 0
  e2 := 0
  h2 := 0
  l2 := 0
  ix := 0
  iy := 0
  sp := 0
  pc := 0
  i := 0
  r := 0
  iff1 := false
  iff2 := false
  im := .im0
  pfx := .none
  halted := false
  eiDelay := false

/-- The raster, sync and interrupt request state after reset (R51): `HSYNC_state` is the pulse level for `HS_COUNTER = 0` and
`INT_GEN` is `INT_GEN_FN` of the reset sync state. -/
def Ula.reset (c : Config) : Ula where
  rasterX := 0
  rasterY := 0
  row := 0
  syncLen := 0
  vsX := 0
  vsY := 0
  hsyncState := hsyncLevel c 0
  vsyncState := false
  hsCounter := 0
  nmiGenOn := false
  nmiPending := false
  l1 := false
  l2 := false
  l3 := false
  l2Len := 0
  rowHold := false
  intGen := intGenOf c [0, 0, 0, 0, (hsyncLevel c 0).toInt, 0, 0, 0, 0, 0, 0, 0, 0, 0]

/-- The pool at power-on (R703). -/
def Pool.powerOn (c : Config) : Pool where
  free := List.range c.poolCap
  pend := []
  cur := none
  prev := none
  out := []
  shown := 0
  blanked := false
  blankColour := .black
  interlace := c.frameSync == .interlaced
  frameParity := false
  noSkip := false
  lock := .free
  renderReady := false
  chromaInUse := List.replicate c.poolCap false

/-- The state power-on initialisation leaves (R870), for valid parameters `c` and the storage `rom` that holds the ROM image and
whatever RAM holds. -/
def State.powerOn (c : Config) (rom : Memory) : State where
  cfg := c
  cpu := Cpu.reset
  pt := c.ptInit
  phys := rom
  ts := 0
  frames := 0
  ula := Ula.reset c
  draw := none
  pool := Pool.powerOn c
  pix := List.replicate c.poolCap []
  chroma := List.replicate c.poolCap []
  cycles := 0
  ev := SyncEvent.none
  soundLog := []
  soundFlushed := []
  renView := none
  hostResult := .none
  agenda := []
  renBetween := []
  freeCount := 0

/-- The machine right after power-on and machine reset (R51, R703), at the default parameters, with nothing listed in memory. -/
def State.reset : State := State.powerOn Config.default []

end Sys2Proof.Machine
end

