-- ==== Sys2Proof/Syntax.lean ====
section
/-! DEFINITION. The abstract syntax of the instruction set: ONE constructor per row of spec/opcode_table.json, in the table's
order (R130), with the operand fields of R113 to R118 turned into constructors. -/

namespace Sys2Proof

/-- The seven 8-bit registers of R113; code 6 is the memory operand `(HL)`, which has rows of its own. -/
inductive Reg8 where
  | b | c | d | e | h | l | a
  deriving DecidableEq, Repr

/-- The pairs `dd`, `ss` of R114 (`rp[p]`). -/
inductive Pair where
  | bc | de | hl | sp
  deriving DecidableEq, Repr

/-- The pairs `qq` of R114 (`rp2[p]`), of `PUSH` and `POP`. -/
inductive StackPair where
  | bc | de | hl | af
  deriving DecidableEq, Repr

/-- The operand `pp` or `rr` of `ADD IX,pp` and `ADD IY,rr` (R343): `own` is the index register itself. -/
inductive IdxPair where
  | bc | de | own | sp
  deriving DecidableEq, Repr

/-- The condition codes of R115, in the order of their codes. -/
inductive Cond where
  | nz | z | nc | c | po | pe | p | m
  deriving DecidableEq, Repr

/-- The index register a DD (`ix`) or FD (`iy`) byte selects (R120). -/
inductive Idx where
  | ix | iy
  deriving DecidableEq, Repr

/-- The half of an index register (R551). -/
inductive Half where
  | high | low
  deriving DecidableEq, Repr

/-- An instruction: one constructor per row of the opcode table. `AtHl` is the memory operand `(HL)`, `AtIdx` is `(IX+d)` or
`(IY+d)`, `AtNn` is `(nn)`. -/
inductive Instr where
  /-- `NOP`: 00000000 (R325). -/
  | nop
  /-- `LD dd,nn`: 00pp0001 llllllll hhhhhhhh (R220). -/
  | ldPairNn (p : Pair) (nn : Word)
  /-- `LD (BC),A`: 00000010 (R212). -/
  | ldAtBcA
  /-- `INC ss`: 00pp0011 (R344). -/
  | incPair (p : Pair)
  /-- `INC r`: 00ddd100 (R310). -/
  | incR (r : Reg8)
  /-- `DEC r`: 00ddd101 (R313). -/
  | decR (r : Reg8)
  /-- `LD r,n`: 00ddd110 nnnnnnnn (R202). -/
  | ldRN (r : Reg8) (n : Byte)
  /-- `RLCA`: 00000111 (R401). -/
  | rlca
  /-- `EX AF,AF'`: 00001000 (R240). -/
  | exAfAf
  /-- `ADD HL,ss`: 00pp1001 (R340). -/
  | addHlPair (p : Pair)
  /-- `LD A,(BC)`: 00001010 (R209). -/
  | ldAAtBc
  /-- `DEC ss`: 00pp1011 (R346). -/
  | decPair (p : Pair)
  /-- `RRCA`: 00001111 (R403). -/
  | rrca
  /-- `DJNZ e`: 00010000 eeeeeeee (R460). -/
  | djnz (e : Byte)
  /-- `LD (DE),A`: 00010010 (R213). -/
  | ldAtDeA
  /-- `RLA`: 00010111 (R402). -/
  | rla
  /-- `JR e`: 00011000 eeeeeeee (R453). -/
  | jr (e : Byte)
  /-- `LD A,(DE)`: 00011010 (R210). -/
  | ldAAtDe
  /-- `RRA`: 00011111 (R404). -/
  | rra
  /-- `JR NZ,e`: 00100000 eeeeeeee (R457). -/
  | jrNz (e : Byte)
  /-- `LD (nn),HL`: 00100010 llllllll hhhhhhhh (R225). -/
  | ldAtNnHl (nn : Word)
  /-- `DAA`: 00100111 (R320). -/
  | daa
  /-- `JR Z,e`: 00101000 eeeeeeee (R456). -/
  | jrZ (e : Byte)
  /-- `LD HL,(nn)`: 00101010 llllllll hhhhhhhh (R222). -/
  | ldHlAtNn (nn : Word)
  /-- `CPL`: 00101111 (R321). -/
  | cpl
  /-- `JR NC,e`: 00110000 eeeeeeee (R455). -/
  | jrNc (e : Byte)
  /-- `LD (nn),A`: 00110010 llllllll hhhhhhhh (R214). -/
  | ldAtNnA (nn : Word)
  /-- `INC (HL)`: 00110100 (R311). -/
  | incAtHl
  /-- `DEC (HL)`: 00110101 (R314). -/
  | decAtHl
  /-- `LD (HL),n`: 00110110 nnnnnnnn (R207). -/
  | ldAtHlN (n : Byte)
  /-- `SCF`: 00110111 (R324). -/
  | scf
  /-- `JR C,e`: 00111000 eeeeeeee (R454). -/
  | jrC (e : Byte)
  /-- `LD A,(nn)`: 00111010 llllllll hhhhhhhh (R211). -/
  | ldAAtNn (nn : Word)
  /-- `CCF`: 00111111 (R323). -/
  | ccf
  /-- `LD r,r'`: 01dddsss (R201). -/
  | ldRR (r : Reg8) (r2 : Reg8)
  /-- `LD r,(HL)`: 01ddd110 (R203). -/
  | ldRAtHl (r : Reg8)
  /-- `LD (HL),r`: 01110sss (R205). -/
  | ldAtHlR (r : Reg8)
  /-- `HALT`: 01110110 (R326). -/
  | halt
  /-- `ADD A,r`: 10000sss (R301). -/
  | addAR (r : Reg8)
  /-- `ADD A,(HL)`: 10000110 (R301). -/
  | addAAtHl
  /-- `ADD A,n`: 11000110 nnnnnnnn (R301). -/
  | addAN (n : Byte)
  /-- `ADC A,r`: 10001sss (R302). -/
  | adcAR (r : Reg8)
  /-- `ADC A,(HL)`: 10001110 (R302). -/
  | adcAAtHl
  /-- `ADC A,n`: 11001110 nnnnnnnn (R302). -/
  | adcAN (n : Byte)
  /-- `SUB r`: 10010sss (R303). -/
  | subR (r : Reg8)
  /-- `SUB (HL)`: 10010110 (R303). -/
  | subAtHl
  /-- `SUB n`: 11010110 nnnnnnnn (R303). -/
  | subN (n : Byte)
  /-- `SBC A,r`: 10011sss (R304). -/
  | sbcAR (r : Reg8)
  /-- `SBC A,(HL)`: 10011110 (R304). -/
  | sbcAAtHl
  /-- `SBC A,n`: 11011110 nnnnnnnn (R304). -/
  | sbcAN (n : Byte)
  /-- `AND r`: 10100sss (R305). -/
  | andR (r : Reg8)
  /-- `AND (HL)`: 10100110 (R305). -/
  | andAtHl
  /-- `AND n`: 11100110 nnnnnnnn (R305). -/
  | andN (n : Byte)
  /-- `XOR r`: 10101sss (R306). -/
  | xorR (r : Reg8)
  /-- `XOR (HL)`: 10101110 (R306). -/
  | xorAtHl
  /-- `XOR n`: 11101110 nnnnnnnn (R306). -/
  | xorN (n : Byte)
  /-- `OR r`: 10110sss (R307). -/
  | orR (r : Reg8)
  /-- `OR (HL)`: 10110110 (R307). -/
  | orAtHl
  /-- `OR n`: 11110110 nnnnnnnn (R307). -/
  | orN (n : Byte)
  /-- `CP r`: 10111sss (R308). -/
  | cpR (r : Reg8)
  /-- `CP (HL)`: 10111110 (R308). -/
  | cpAtHl
  /-- `CP n`: 11111110 nnnnnnnn (R308). -/
  | cpN (n : Byte)
  /-- `RET cc`: 11ccc000 (R464). -/
  | retCc (cc : Cond)
  /-- `POP qq`: 11pp0001 (R232). -/
  | popPair (q : StackPair)
  /-- `JP cc,nn`: 11ccc010 llllllll hhhhhhhh (R452). -/
  | jpCcNn (cc : Cond) (nn : Word)
  /-- `JP nn`: 11000011 llllllll hhhhhhhh (R451). -/
  | jpNn (nn : Word)
  /-- `OUT (n),A`: 11010011 nnnnnnnn (R516). -/
  | outNA (n : Byte)
  /-- `EX (SP),HL`: 11100011 (R242). -/
  | exAtSpHl
  /-- `DI`: 11110011 (R327). -/
  | di
  /-- `CALL cc,nn`: 11ccc100 llllllll hhhhhhhh (R462). -/
  | callCcNn (cc : Cond) (nn : Word)
  /-- `PUSH qq`: 11pp0101 (R230). -/
  | pushPair (q : StackPair)
  /-- `RST p`: 11ttt111 (R467). -/
  | rst (t : BitVec 3)
  /-- `RET`: 11001001 (R463). -/
  | ret
  /-- `EXX`: 11011001 (R241). -/
  | exx
  /-- `JP (HL)`: 11101001 (R458). -/
  | jpHl
  /-- `LD SP,HL`: 11111001 (R228). -/
  | ldSpHl
  /-- `(prefix CB)`: 11001011 (R121). -/
  | prefixCb
  /-- `IN A,(n)`: 11011011 nnnnnnnn (R510). -/
  | inAN (n : Byte)
  /-- `EX DE,HL`: 11101011 (R239). -/
  | exDeHl
  /-- `EI`: 11111011 (R328). -/
  | ei
  /-- `CALL nn`: 11001101 llllllll hhhhhhhh (R461). -/
  | callNn (nn : Word)
  /-- `(prefix DD)`: 11011101 (R120). -/
  | prefixDd
  /-- `(prefix ED)`: 11101101 (R122). -/
  | prefixEd
  /-- `(prefix FD)`: 11111101 (R120). -/
  | prefixFd
  /-- `RLC r`: 11001011 00000sss (R405). -/
  | rlcR (r : Reg8)
  /-- `RLC (HL)`: 11001011 00000110 (R405). -/
  | rlcAtHl
  /-- `RRC r`: 11001011 00001sss (R407). -/
  | rrcR (r : Reg8)
  /-- `RRC (HL)`: 11001011 00001110 (R407). -/
  | rrcAtHl
  /-- `RL r`: 11001011 00010sss (R406). -/
  | rlR (r : Reg8)
  /-- `RL (HL)`: 11001011 00010110 (R406). -/
  | rlAtHl
  /-- `RR r`: 11001011 00011sss (R408). -/
  | rrR (r : Reg8)
  /-- `RR (HL)`: 11001011 00011110 (R408). -/
  | rrAtHl
  /-- `SLA r`: 11001011 00100sss (R409). -/
  | slaR (r : Reg8)
  /-- `SLA (HL)`: 11001011 00100110 (R409). -/
  | slaAtHl
  /-- `SRA r`: 11001011 00101sss (R410). -/
  | sraR (r : Reg8)
  /-- `SRA (HL)`: 11001011 00101110 (R410). -/
  | sraAtHl
  /-- `SLL r`: 11001011 00110sss (R555). -/
  | sllR (r : Reg8)
  /-- `SLL (HL)`: 11001011 00110110 (R555). -/
  | sllAtHl
  /-- `SRL r`: 11001011 00111sss (R411). -/
  | srlR (r : Reg8)
  /-- `SRL (HL)`: 11001011 00111110 (R411). -/
  | srlAtHl
  /-- `BIT b,r`: 11001011 01bbbsss (R420). -/
  | bitR (b : BitVec 3) (r : Reg8)
  /-- `BIT b,(HL)`: 11001011 01bbb110 (R421). -/
  | bitAtHl (b : BitVec 3)
  /-- `RES b,r`: 11001011 10bbbsss (R424). -/
  | resR (b : BitVec 3) (r : Reg8)
  /-- `RES b,(HL)`: 11001011 10bbb110 (R424). -/
  | resAtHl (b : BitVec 3)
  /-- `SET b,r`: 11001011 11bbbsss (R423). -/
  | setR (b : BitVec 3) (r : Reg8)
  /-- `SET b,(HL)`: 11001011 11bbb110 (R423). -/
  | setAtHl (b : BitVec 3)
  /-- `IN r,(C)`: 11101101 01ddd000 (R511). -/
  | inRC (r : Reg8)
  /-- `IN F,(C)`: 11101101 01110000 (R559). -/
  | inFC
  /-- `OUT (C),r`: 11101101 01sss001 (R517). -/
  | outCR (r : Reg8)
  /-- `OUT (C),0`: 11101101 01110001 (R560). -/
  | outC0
  /-- `SBC HL,ss`: 11101101 01pp0010 (R342). -/
  | sbcHlPair (p : Pair)
  /-- `ADC HL,ss`: 11101101 01pp1010 (R341). -/
  | adcHlPair (p : Pair)
  /-- `LD (nn),dd`: 11101101 01pp0011 llllllll hhhhhhhh (R226). -/
  | ldAtNnPair (p : Pair) (nn : Word)
  /-- `LD dd,(nn)`: 11101101 01pp1011 llllllll hhhhhhhh (R223). -/
  | ldPairAtNn (p : Pair) (nn : Word)
  /-- `NEG`: 11101101 01000100 (R322). -/
  | neg
  /-- `NEG (mirror)`: 11101101 01vvv100 (R561). -/
  | negMirror (v : BitVec 3)
  /-- `RETN`: 11101101 01000101 (R466). -/
  | retn
  /-- `RETI`: 11101101 01001101 (R465). -/
  | reti
  /-- `RETN (mirror)`: 11101101 01vvv101 (R562). -/
  | retnMirror (v : BitVec 3)
  /-- `IM 0`: 11101101 01000110 (R329). -/
  | im0
  /-- `IM 1`: 11101101 01010110 (R330). -/
  | im1
  /-- `IM 2`: 11101101 01011110 (R331). -/
  | im2
  /-- `IM 0 (mirror)`: 11101101 01001110 (R563). -/
  | im0Mirror4E
  /-- `IM 0 (mirror)`: 11101101 01100110 (R563). -/
  | im0Mirror66
  /-- `IM 0 (mirror)`: 11101101 01101110 (R563). -/
  | im0Mirror6E
  /-- `IM 1 (mirror)`: 11101101 01110110 (R563). -/
  | im1Mirror
  /-- `IM 2 (mirror)`: 11101101 01111110 (R563). -/
  | im2Mirror
  /-- `LD I,A`: 11101101 01000111 (R217). -/
  | ldIA
  /-- `LD R,A`: 11101101 01001111 (R218). -/
  | ldRefreshA
  /-- `LD A,I`: 11101101 01010111 (R215). -/
  | ldAI
  /-- `LD A,R`: 11101101 01011111 (R216). -/
  | ldARefresh
  /-- `RRD`: 11101101 01100111 (R413). -/
  | rrd
  /-- `RLD`: 11101101 01101111 (R412). -/
  | rld
  /-- `NOP (ED 77)`: 11101101 01110111 (R565). -/
  | nopEd77
  /-- `NOP (ED 7F)`: 11101101 01111111 (R565). -/
  | nopEd7F
  /-- `LDI`: 11101101 10100000 (R244). -/
  | ldi
  /-- `CPI`: 11101101 10100001 (R248). -/
  | cpi
  /-- `INI`: 11101101 10100010 (R512). -/
  | ini
  /-- `OUTI`: 11101101 10100011 (R518). -/
  | outi
  /-- `LDD`: 11101101 10101000 (R246). -/
  | ldd
  /-- `CPD`: 11101101 10101001 (R250). -/
  | cpd
  /-- `IND`: 11101101 10101010 (R514). -/
  | ind
  /-- `OUTD`: 11101101 10101011 (R520). -/
  | outd
  /-- `LDIR`: 11101101 10110000 (R245). -/
  | ldir
  /-- `CPIR`: 11101101 10110001 (R249). -/
  | cpir
  /-- `INIR`: 11101101 10110010 (R513). -/
  | inir
  /-- `OTIR`: 11101101 10110011 (R519). -/
  | otir
  /-- `LDDR`: 11101101 10111000 (R247). -/
  | lddr
  /-- `CPDR`: 11101101 10111001 (R251). -/
  | cpdr
  /-- `INDR`: 11101101 10111010 (R515). -/
  | indr
  /-- `OTDR`: 11101101 10111011 (R521). -/
  | otdr
  /-- `NOP (undefined ED opcode)`: 11101101 wwwwwwww (R565). -/
  | nopEdUndefined (w : Byte)
  /-- `LD IX|IY,nn`: 11i11101 00100001 llllllll hhhhhhhh (R221). -/
  | ldIdxNn (x : Idx) (nn : Word)
  /-- `ADD IX|IY,pp`: 11i11101 00pp1001 (R343). -/
  | addIdxPair (x : Idx) (p : IdxPair)
  /-- `LD (nn),IX|IY`: 11i11101 00100010 llllllll hhhhhhhh (R227). -/
  | ldAtNnIdx (x : Idx) (nn : Word)
  /-- `INC IX|IY`: 11i11101 00100011 (R345). -/
  | incIdx (x : Idx)
  /-- `INC IXH|IXL|IYH|IYL`: 11i11101 0010x100 (R554). -/
  | incHalf (x : Idx) (hf : Half)
  /-- `DEC IXH|IXL|IYH|IYL`: 11i11101 0010x101 (R554). -/
  | decHalf (x : Idx) (hf : Half)
  /-- `LD IXH|IXL|IYH|IYL,n`: 11i11101 0010x110 nnnnnnnn (R552). -/
  | ldHalfN (x : Idx) (hf : Half) (n : Byte)
  /-- `LD IX|IY,(nn)`: 11i11101 00101010 llllllll hhhhhhhh (R224). -/
  | ldIdxAtNn (x : Idx) (nn : Word)
  /-- `DEC IX|IY`: 11i11101 00101011 (R347). -/
  | decIdx (x : Idx)
  /-- `INC (IX|IY+d)`: 11i11101 00110100 oooooooo (R312). -/
  | incAtIdx (x : Idx) (d : Byte)
  /-- `DEC (IX|IY+d)`: 11i11101 00110101 oooooooo (R315). -/
  | decAtIdx (x : Idx) (d : Byte)
  /-- `LD (IX|IY+d),n`: 11i11101 00110110 oooooooo nnnnnnnn (R208). -/
  | ldAtIdxN (x : Idx) (d : Byte) (n : Byte)
  /-- `LD r,(IX|IY+d)`: 11i11101 01ddd110 oooooooo (R204). -/
  | ldRAtIdx (x : Idx) (r : Reg8) (d : Byte)
  /-- `LD (IX|IY+d),r`: 11i11101 01110sss oooooooo (R206). -/
  | ldAtIdxR (x : Idx) (r : Reg8) (d : Byte)
  /-- `LD r*,IXH|IXL|IYH|IYL`: 11i11101 01ddd10x (R551). -/
  | ldRHalf (x : Idx) (r : Reg8) (hf : Half)
  /-- `LD IXH|IXL|IYH|IYL,r`: 11i11101 0110xsss (R551). -/
  | ldHalfR (x : Idx) (hf : Half) (r : Reg8)
  /-- `ADD A,IXH|IXL|IYH|IYL`: 11i11101 1000010x (R553). -/
  | addAHalf (x : Idx) (hf : Half)
  /-- `ADD A,(IX|IY+d)`: 11i11101 10000110 oooooooo (R301). -/
  | addAAtIdx (x : Idx) (d : Byte)
  /-- `ADC A,IXH|IXL|IYH|IYL`: 11i11101 1000110x (R553). -/
  | adcAHalf (x : Idx) (hf : Half)
  /-- `ADC A,(IX|IY+d)`: 11i11101 10001110 oooooooo (R302). -/
  | adcAAtIdx (x : Idx) (d : Byte)
  /-- `SUB IXH|IXL|IYH|IYL`: 11i11101 1001010x (R553). -/
  | subHalf (x : Idx) (hf : Half)
  /-- `SUB (IX|IY+d)`: 11i11101 10010110 oooooooo (R303). -/
  | subAtIdx (x : Idx) (d : Byte)
  /-- `SBC A,IXH|IXL|IYH|IYL`: 11i11101 1001110x (R553). -/
  | sbcAHalf (x : Idx) (hf : Half)
  /-- `SBC A,(IX|IY+d)`: 11i11101 10011110 oooooooo (R304). -/
  | sbcAAtIdx (x : Idx) (d : Byte)
  /-- `AND IXH|IXL|IYH|IYL`: 11i11101 1010010x (R553). -/
  | andHalf (x : Idx) (hf : Half)
  /-- `AND (IX|IY+d)`: 11i11101 10100110 oooooooo (R305). -/
  | andAtIdx (x : Idx) (d : Byte)
  /-- `XOR IXH|IXL|IYH|IYL`: 11i11101 1010110x (R553). -/
  | xorHalf (x : Idx) (hf : Half)
  /-- `XOR (IX|IY+d)`: 11i11101 10101110 oooooooo (R306). -/
  | xorAtIdx (x : Idx) (d : Byte)
  /-- `OR IXH|IXL|IYH|IYL`: 11i11101 1011010x (R553). -/
  | orHalf (x : Idx) (hf : Half)
  /-- `OR (IX|IY+d)`: 11i11101 10110110 oooooooo (R307). -/
  | orAtIdx (x : Idx) (d : Byte)
  /-- `CP IXH|IXL|IYH|IYL`: 11i11101 1011110x (R553). -/
  | cpHalf (x : Idx) (hf : Half)
  /-- `CP (IX|IY+d)`: 11i11101 10111110 oooooooo (R308). -/
  | cpAtIdx (x : Idx) (d : Byte)
  /-- `POP IX|IY`: 11i11101 11100001 (R233). -/
  | popIdx (x : Idx)
  /-- `EX (SP),IX|IY`: 11i11101 11100011 (R243). -/
  | exAtSpIdx (x : Idx)
  /-- `PUSH IX|IY`: 11i11101 11100101 (R231). -/
  | pushIdx (x : Idx)
  /-- `JP (IX|IY)`: 11i11101 11101001 (R459). -/
  | jpIdx (x : Idx)
  /-- `LD SP,IX|IY`: 11i11101 11111001 (R229). -/
  | ldSpIdx (x : Idx)
  /-- `(prefix DD CB | FD CB)`: 11i11101 11001011 (R123). -/
  | prefixIdxCb (x : Idx)
  /-- `(index prefix without effect)`: 11i11101 wwwwwwww (R566). -/
  | indexPrefixNoEffect (x : Idx) (w : Byte)
  /-- `RLC (IX|IY+d)`: 11i11101 11001011 oooooooo 00000110 (R405). -/
  | rlcAtIdx (x : Idx) (d : Byte)
  /-- `RLC (IX|IY+d),r`: 11i11101 11001011 oooooooo 00000sss (R556). -/
  | rlcAtIdxR (x : Idx) (d : Byte) (r : Reg8)
  /-- `RRC (IX|IY+d)`: 11i11101 11001011 oooooooo 00001110 (R407). -/
  | rrcAtIdx (x : Idx) (d : Byte)
  /-- `RRC (IX|IY+d),r`: 11i11101 11001011 oooooooo 00001sss (R556). -/
  | rrcAtIdxR (x : Idx) (d : Byte) (r : Reg8)
  /-- `RL (IX|IY+d)`: 11i11101 11001011 oooooooo 00010110 (R406). -/
  | rlAtIdx (x : Idx) (d : Byte)
  /-- `RL (IX|IY+d),r`: 11i11101 11001011 oooooooo 00010sss (R556). -/
  | rlAtIdxR (x : Idx) (d : Byte) (r : Reg8)
  /-- `RR (IX|IY+d)`: 11i11101 11001011 oooooooo 00011110 (R408). -/
  | rrAtIdx (x : Idx) (d : Byte)
  /-- `RR (IX|IY+d),r`: 11i11101 11001011 oooooooo 00011sss (R556). -/
  | rrAtIdxR (x : Idx) (d : Byte) (r : Reg8)
  /-- `SLA (IX|IY+d)`: 11i11101 11001011 oooooooo 00100110 (R409). -/
  | slaAtIdx (x : Idx) (d : Byte)
  /-- `SLA (IX|IY+d),r`: 11i11101 11001011 oooooooo 00100sss (R556). -/
  | slaAtIdxR (x : Idx) (d : Byte) (r : Reg8)
  /-- `SRA (IX|IY+d)`: 11i11101 11001011 oooooooo 00101110 (R410). -/
  | sraAtIdx (x : Idx) (d : Byte)
  /-- `SRA (IX|IY+d),r`: 11i11101 11001011 oooooooo 00101sss (R556). -/
  | sraAtIdxR (x : Idx) (d : Byte) (r : Reg8)
  /-- `SLL (IX|IY+d)`: 11i11101 11001011 oooooooo 00110110 (R555). -/
  | sllAtIdx (x : Idx) (d : Byte)
  /-- `SLL (IX|IY+d),r`: 11i11101 11001011 oooooooo 00110sss (R556). -/
  | sllAtIdxR (x : Idx) (d : Byte) (r : Reg8)
  /-- `SRL (IX|IY+d)`: 11i11101 11001011 oooooooo 00111110 (R411). -/
  | srlAtIdx (x : Idx) (d : Byte)
  /-- `SRL (IX|IY+d),r`: 11i11101 11001011 oooooooo 00111sss (R556). -/
  | srlAtIdxR (x : Idx) (d : Byte) (r : Reg8)
  /-- `BIT b,(IX|IY+d)`: 11i11101 11001011 oooooooo 01bbb110 (R422). -/
  | bitAtIdx (x : Idx) (b : BitVec 3) (d : Byte)
  /-- `BIT b,(IX|IY+d) (mirror)`: 11i11101 11001011 oooooooo 01bbbsss (R558). -/
  | bitAtIdxMirror (x : Idx) (b : BitVec 3) (d : Byte) (r : Reg8)
  /-- `RES b,(IX|IY+d)`: 11i11101 11001011 oooooooo 10bbb110 (R424). -/
  | resAtIdx (x : Idx) (b : BitVec 3) (d : Byte)
  /-- `RES b,(IX|IY+d),r`: 11i11101 11001011 oooooooo 10bbbsss (R557). -/
  | resAtIdxR (x : Idx) (b : BitVec 3) (d : Byte) (r : Reg8)
  /-- `SET b,(IX|IY+d)`: 11i11101 11001011 oooooooo 11bbb110 (R423). -/
  | setAtIdx (x : Idx) (b : BitVec 3) (d : Byte)
  /-- `SET b,(IX|IY+d),r`: 11i11101 11001011 oooooooo 11bbbsss (R557). -/
  | setAtIdxR (x : Idx) (b : BitVec 3) (d : Byte) (r : Reg8)
  deriving DecidableEq, Repr

end Sys2Proof
end

