-- ==== Sys2Proof/Machine/Ops.lean ====
section
/-! DEFINITION. The named operations every meaning is built from: outcomes, register access (R12, R113, R114), memory and
stack (R70 to R78), the refresh counter (R145), free values (R14), and the entry into and return from an interrupt (R805 to
R815). -/

namespace Sys2Proof.Machine

/-! ### Outcomes -/

/-- The outcome of a step or of a part of one. -/
abbrev Out := Host.Outcome State Fault Refusal

/-- Goes on with `f` after a next state; a stop stays a stop. -/
def andThen (o : Out) (f : State → Out) : Out :=
  match o with
  | .next s => f s
  | .fault r => .fault r
  | .refused r => .refused r

/-- Ends an instruction that returns `n` T-states: `cycles <- n` (R14, R129). -/
def State.took (s : State) (n : Nat) : State := { s with cycles := n }

/-- The next state of an instruction that returns `n` T-states. -/
def finish (n : Nat) (s : State) : Out := .next (s.took n)

/-! ### Free values (R14) -/

/-- The state after one free value is drawn. -/
def State.drawn (s : State) : State := { s with freeCount := s.freeCount + 1 }

/-- The next free byte. -/
def State.anyByte (s : State) : Byte := Config.freeByte s.freeCount

/-! ### Registers (R12, R21 to R27, R113, R114) -/

/-- `x[i]` read (R12, R113). -/
def Cpu.reg (c : Cpu) : Reg8 → Byte
  | .b => c.b
  | .c => c.c
  | .d => c.d
  | .e => c.e
  | .h => c.h
  | .l => c.l
  | .a => c.a

/-- `x[i] <- v` (R12, R113). -/
def Cpu.setReg (c : Cpu) (r : Reg8) (v : Byte) : Cpu :=
  match r with
  | .b => { c with b := v }
  | .c => { c with c := v }
  | .d => { c with d := v }
  | .e => { c with e := v }
  | .h => { c with h := v }
  | .l => { c with l := v }
  | .a => { c with a := v }

/-- `AF` (R12). -/
def Cpu.af (c : Cpu) : Word := joinBytes c.a c.f

/-- `BC` (R12). -/
def Cpu.bc (c : Cpu) : Word := joinBytes c.b c.c

/-- `DE` (R12). -/
def Cpu.de (c : Cpu) : Word := joinBytes c.d c.e

/-- `HL` (R12). -/
def Cpu.hl (c : Cpu) : Word := joinBytes c.h c.l

/-- `AF <- w`: both halves are written (R12). -/
def Cpu.setAf (c : Cpu) (w : Word) : Cpu := { c with a := hiByte w, f := loByte w }

/-- `BC <- w` (R12). -/
def Cpu.setBc (c : Cpu) (w : Word) : Cpu := { c with b := hiByte w, c := loByte w }

/-- `DE <- w` (R12). -/
def Cpu.setDe (c : Cpu) (w : Word) : Cpu := { c with d := hiByte w, e := loByte w }

/-- `HL <- w` (R12). -/
def Cpu.setHl (c : Cpu) (w : Word) : Cpu := { c with h := hiByte w, l := loByte w }

/-- `rp[p]` read (R114). -/
def Cpu.pair (c : Cpu) : Pair → Word
  | .bc => c.bc
  | .de => c.de
  | .hl => c.hl
  | .sp => c.sp

/-- `rp[p] <- w` (R114). -/
def Cpu.setPair (c : Cpu) (p : Pair) (w : Word) : Cpu :=
  match p with
  | .bc => c.setBc w
  | .de => c.setDe w
  | .hl => c.setHl w
  | .sp => { c with sp := w }

/-- `rp2[p]` read (R114). -/
def Cpu.stackPair (c : Cpu) : StackPair → Word
  | .bc => c.bc
  | .de => c.de
  | .hl => c.hl
  | .af => c.af

/-- `rp2[p] <- w` (R114). -/
def Cpu.setStackPair (c : Cpu) (q : StackPair) (w : Word) : Cpu :=
  match q with
  | .bc => c.setBc w
  | .de => c.setDe w
  | .hl => c.setHl w
  | .af => c.setAf w

/-- `IX` or `IY` read (R23, R120). -/
def Cpu.idx (c : Cpu) : Idx → Word
  | .ix => c.ix
  | .iy => c.iy

/-- `IX <- w` or `IY <- w` (R23, R120). -/
def Cpu.setIdx (c : Cpu) (x : Idx) (w : Word) : Cpu :=
  match x with
  | .ix => { c with ix := w }
  | .iy => { c with iy := w }

/-- `rp[p]` under an index prefix: `BC`, `DE`, the index register itself, `SP` (R114, R343). -/
def Cpu.idxPair (c : Cpu) (x : Idx) : IdxPair → Word
  | .bc => c.bc
  | .de => c.de
  | .own => c.idx x
  | .sp => c.sp

/-- `IXH`, `IXL`, `IYH` or `IYL` read (R12, R23). -/
def Cpu.half (c : Cpu) (x : Idx) : Half → Byte
  | .high => hiByte (c.idx x)
  | .low => loByte (c.idx x)

/-- A half of an index register written; the other half stays (R12, R23). -/
def Cpu.setHalf (c : Cpu) (x : Idx) (hf : Half) (v : Byte) : Cpu :=
  match hf with
  | .high => c.setIdx x (joinBytes v (loByte (c.idx x)))
  | .low => c.setIdx x (joinBytes (hiByte (c.idx x)) v)

/-- The state with another register file. -/
def State.setCpu (s : State) (c : Cpu) : State := { s with cpu := c }

/-- `x[i] <- v`. -/
def State.setReg (s : State) (r : Reg8) (v : Byte) : State := s.setCpu (s.cpu.setReg r v)

/-- `rp[p] <- w`. -/
def State.setPair (s : State) (p : Pair) (w : Word) : State := s.setCpu (s.cpu.setPair p w)

/-- `IX <- w` or `IY <- w`. -/
def State.setIdx (s : State) (x : Idx) (w : Word) : State := s.setCpu (s.cpu.setIdx x w)

/-- An index half `<- v`. -/
def State.setHalf (s : State) (x : Idx) (hf : Half) (v : Byte) : State := s.setCpu (s.cpu.setHalf x hf v)

/-- `F <- f`. -/
def State.setF (s : State) (f : Byte) : State := s.setCpu { s.cpu with f := f }

/-- `(A, F) <- (a, f)`. -/
def State.setAF (s : State) (a f : Byte) : State := s.setCpu { s.cpu with a := a, f := f }

/-- `HL <- w`. -/
def State.setHl (s : State) (w : Word) : State := s.setCpu (s.cpu.setHl w)

/-- `pc <- target` (R12, R25). -/
def State.setPc (s : State) (target : Word) : State := s.setCpu { s.cpu with pc := target }

/-- `SP <- w` (R24). -/
def State.setSp (s : State) (w : Word) : State := s.setCpu { s.cpu with sp := w }

/-- `Cf` of R33: the carry flag. -/
def Cpu.carry (c : Cpu) : Bool := c.f.getLsbD 0

/-! ### The refresh counter (R27, R145) -/

/-- `IncR()` (R145): bit 7 is kept, the low seven bits count modulo 128. -/
def incRefresh (r : Byte) : Byte := (r &&& 0x80) ||| ((r + 1) &&& 0x7F)

/-- `IncR()` on the state. -/
def State.incR (s : State) : State := s.setCpu { s.cpu with r := incRefresh s.cpu.r }

/-! ### Storage -/

/-- The byte at an address of a storage. -/
def Memory.read : Memory → Nat → Byte
  | [], _ => unlistedByte
  | (k, v) :: rest, a => if k = a then v else Memory.read rest a

/-- A storage without an entry for `a`. -/
def Memory.remove : Memory → Nat → Memory
  | [], _ => []
  | (k, v) :: rest, a => if k = a then Memory.remove rest a else (k, v) :: Memory.remove rest a

/-- A storage with an entry for `a` put before the first larger address. -/
def Memory.insertAt : Memory → Nat → Byte → Memory
  | [], a, v => [(a, v)]
  | (k, w) :: rest, a, v => if a < k then (a, v) :: (k, w) :: rest else (k, w) :: Memory.insertAt rest a v

/-- A storage after the byte `v` is written at `a`; writing what an unlisted address reads as removes the entry. -/
def Memory.write (m : Memory) (a : Nat) (v : Byte) : Memory :=
  if v = unlistedByte then m.remove a else (m.remove a).insertAt a v

/-! ### The CPU's address space (R70 to R77) -/

/-- The page of an address, `addr[15:10]` (R71). -/
def pageOf (a : Word) : Fin 64 := ⟨(a.extractLsb' 10 6).toNat, (a.extractLsb' 10 6).isLt⟩

/-- The offset of an address in its page, `addr[9:0]` (R71). -/
def pageOffset (a : Word) : Nat := (a.extractLsb' 0 10).toNat

/-- The page-table entry an address selects (R71). -/
def State.entry (s : State) (a : Word) : PageEntry := s.pt[pageOf a]

/-- The address in `PHYS` of the byte a CPU address names (R71). -/
def State.physAddr (s : State) (a : Word) : Nat := (s.entry a).base + pageOffset a

/-- `MemRead(addr, 1)` (R73). -/
def State.memRead (s : State) (a : Word) : Byte := s.phys.read (s.physAddr a)

/-- `MemWrite(addr, 1, v)`: a write to a page that is not writable is silently discarded (R74). -/
def State.memWrite (s : State) (a : Word) (v : Byte) : State :=
  if (s.entry a).writable then { s with phys := s.phys.write (s.physAddr a) v } else s

/-- `MemRead(addr, 2)`: low byte first, the second byte at `(addr + 1) mod 65536` (R77). -/
def State.memRead16 (s : State) (a : Word) : Word := joinBytes (s.memRead (a + 1)) (s.memRead a)

/-- `MemWrite(addr, 2, v)`: low byte first (R77). -/
def State.memWrite16 (s : State) (a w : Word) : State := (s.memWrite a (loByte w)).memWrite (a + 1) (hiByte w)

/-! ### The stack (R78) -/

/-- `Push16(v)`: the high byte is pushed first (R78). -/
def State.push16 (s : State) (w : Word) : State :=
  (((s.setSp (s.cpu.sp - 1)).memWrite (s.cpu.sp - 1) (hiByte w)).setSp (s.cpu.sp - 2)).memWrite (s.cpu.sp - 2) (loByte w)

/-- The word `Pop16()` returns (R78). -/
def State.popWord (s : State) : Word := joinBytes (s.memRead (s.cpu.sp + 1)) (s.memRead s.cpu.sp)

/-- The state after `Pop16()` (R78). -/
def State.popped (s : State) : State := s.setSp (s.cpu.sp + 2)

/-! ### Taking an interrupt (R805, R806, R809 to R812) and returning from one (R815) -/

/-- `UlaIntAck()` (R630): in variant B it sets `L2` and restarts `L2_LEN`; in variant A nothing. -/
def State.ulaIntAck (s : State) : State :=
  match s.cfg.machine with
  | .nmiVariant => s
  | .ffVariant => { s with ula := { s.ula with l2 := true, l2Len := 0 } }

/-- The part of both entries that leaves a `HALT`: `HALTED` is cleared and `PC` steps past the opcode (R326, R805, R809). -/
def State.leaveHalt (s : State) : State :=
  if s.cpu.halted then s.setCpu { s.cpu with halted := false, pc := s.cpu.pc + 1 } else s

/-- What every interrupt entry does once its flip-flops are written: one refresh count, `PC` pushed, `PC` at the handler, and
the cost of the entry (R805, R810 to R812). -/
def State.enterHandler (s : State) (target : State → Word) (cost : Nat) : State :=
  let pushed := s.push16 s.cpu.pc
  (pushed.setPc (target pushed)).took cost

/-- `NmiEntry()` (R805). -/
def State.nmiEntry (s : State) : State :=
  let t := { s with ula := { s.ula with nmiPending := false } }.leaveHalt
  (t.setCpu { t.cpu with iff1 := false, eiDelay := false, r := incRefresh t.cpu.r }).enterHandler (fun _ => 0x0066) 11

/-- `IntSample()` (R806). -/
def State.intSample (s : State) : Bool :=
  s.cpu.iff1 && !s.cpu.eiDelay && s.ula.intGen && !(s.cpu.r - 1).getLsbD 6

/-- `IntEntry()` (R809): modes 0 and 1 enter 0x0038 in 13 T-states (R810, R811), mode 2 enters the address read at
`I ++ INT_BUS` in 19 (R812); the vector is read after the push. -/
def State.intEntry (s : State) : State :=
  let t := s.leaveHalt
  let u := (t.setCpu { t.cpu with iff1 := false, iff2 := false, r := incRefresh t.cpu.r }).ulaIntAck
  match s.cpu.im with
  | .im0 => u.enterHandler (fun _ => 0x0038) 13
  | .im1 => u.enterHandler (fun _ => 0x0038) 13
  | .im2 => u.enterHandler (fun p => p.memRead16 (joinBytes p.cpu.i Config.intBus)) 19

/-- The return of `RETN` and `RETI`: `pc <- Pop16(); IFF1 <- IFF2` (R465, R466, R815). -/
def State.returnFromInterrupt (s : State) : State :=
  s.popped.setCpu { s.popped.cpu with pc := s.popWord, iff1 := s.cpu.iff2 }

end Sys2Proof.Machine
end

