-- ==== Sys2Proof/Machine/Pool.lean ====
section
/-! DEFINITION. The frame-buffer pool: the bodies of the five operations (R710 to R740), the lock around them (R704), the turns
of the render context between two operations of the emulation context (R7, R8), and the start of EMU (R641, R745). -/

namespace Sys2Proof.Machine

/-! ### Helpers -/

/-- A handle put into the set `OUT`, kept as a rising list. -/
def outInsert (h : Nat) : List Nat → List Nat
  | [] => [h]
  | k :: rest => if h < k then h :: k :: rest else if h = k then k :: rest else k :: outInsert h rest

/-- `Promote()` (R719); without a pending buffer it does nothing (its requirement). -/
def Pool.promote (p : Pool) : Pool :=
  match p.pend with
  | [] => p
  | h :: rest =>
    let q : Pool :=
      if p.interlace then
        { p with free := p.free ++ p.prev.toList, prev := p.cur, frameParity := !p.frameParity }
      else { p with free := p.free ++ p.cur.toList }
    { q with pend := rest, cur := some h, shown := h }

/-- `Redisplay()` (R726): swaps `CUR` and `PREV` when there is a previous buffer; `SHOWN` follows `CUR`. -/
def Pool.redisplay (p : Pool) : Pool :=
  match p.prev with
  | none => p
  | some h => { p with cur := some h, prev := p.cur, shown := h, frameParity := !p.frameParity }

/-! ### Operations of the emulation context -/

/-- The body of `acquire_free()` (R710): the handle and the pool after it, or nothing when no role yields a buffer. -/
def Pool.acquireFree (p : Pool) : Option (Nat × Pool) :=
  match p.free, p.prev, p.cur with
  | h :: rest, _, _ => some (h, { p with free := rest, out := outInsert h p.out })
  | [], some h, _ => some (h, { p with prev := none, out := outInsert h p.out })
  | [], none, some h =>
    match p.pend with
    | n :: rest => some (h, { p with cur := some n, shown := n, pend := rest, out := outInsert h p.out })
    | [] => some (h, { p with cur := none, out := outInsert h p.out })
  | [], none, none => none

/-- `SubmitDeferred(h)` (R716). -/
def Pool.submitDeferred (p : Pool) (h : Nat) : Pool :=
  if p.pend.length = Config.maxPend then
    let evicted := if p.interlace then 2 else 1
    { p with free := p.free ++ p.pend.take evicted, pend := p.pend.drop evicted ++ [h] }
  else { p with pend := p.pend ++ [h] }

/-- `SubmitImmediate(h, release_predecessor)` (R717). -/
def Pool.submitImmediate (p : Pool) (h : Nat) (release : Bool) : Pool :=
  let q : Pool :=
    match p.cur with
    | none => { p with free := p.free ++ p.pend }
    | some k =>
      if release then { p with free := p.free ++ p.pend ++ [k] }
      else { p with free := p.free ++ p.pend, out := outInsert k p.out }
  { q with pend := [], cur := some h, shown := h, blanked := false }

/-- The body of `submit(h, deferred, release_predecessor, coloured)` (R715, R718): nothing when `h` is not outstanding. -/
def Pool.submit (p : Pool) (colour : Bool) (h : Nat) (deferred release coloured : Bool) : Option Pool :=
  if p.out.contains h then
    let q : Pool := { p with
      out := p.out.filter (· != h)
      chromaInUse := if colour then p.chromaInUse.set h coloured else p.chromaInUse }
    some (if deferred && !q.blanked then q.submitDeferred h else q.submitImmediate h release)
  else none

/-- The body of `blank(to_black)` (R740). -/
def Pool.blank (p : Pool) (toBlack : Bool) : Pool :=
  { p with
    free := p.free ++ p.pend ++ p.prev.toList ++ p.cur.toList
    pend := []
    prev := none
    cur := none
    blanked := true
    blankColour := if toBlack then .black else .white }

/-! ### Operations of the render context -/

/-- What `current()` answers from a pool, after its promotion (R720). -/
def Pool.view (p : Pool) (colour : Bool) : RenView where
  handle := p.cur.getD p.shown
  blanked := p.blanked
  blankColour := p.blankColour
  chromaInUse := colour && p.chromaInUse.getD (p.cur.getD p.shown) false

/-- The body of `advance_frame()`, progressive (R725) and interlaced (R726). -/
def Pool.advanceFrame (p : Pool) : Pool :=
  if p.interlace then
    if p.pend.length = Config.maxPend then p.promote
    else if !p.noSkip && !p.pend.isEmpty then { p.promote with noSkip := true }
    else { p.redisplay with noSkip := false }
  else p.promote

/-! ### The lock (R704) -/

/-- An operation under the lock: wait until `LOCK` is free, take it, run the body, release it. A lock that is held is waited
for for ever (R885); the body's own stop is the machine's (R834). -/
def State.locked (s : State) (who : LockState) (body : Pool → Except Fault (Pool × (State → State))) : Out :=
  if s.pool.lock = .free then
    match body { s.pool with lock := who } with
    | .ok (p, after) => .next (after { s with pool := { p with lock := .free } })
    | .error r => .fault r
  else .fault .lockHeld

/-- A transition of the render context (R8, R720, R725, R726, R745). R745 lets REN call `current()` and `advance_frame()` from its
signal on, and give the signal once; the operations here do not test that: before the signal they do what they do after it, and a
second signal changes nothing. DESIGN CHOICE (log entry 6). The signal is set without `LOCK`: R745 names none, though R49 has
all pool state written under it. DESIGN CHOICE (log entry 12). -/
def State.renOp (s : State) (op : RenOp) : Out :=
  match op with
  | .current =>
    s.locked .ren fun p =>
      .ok (p.promote, fun t => { t with renView := some (p.promote.view s.cfg.colour) })
  | .advanceFrame => s.locked .ren fun p => .ok (p.advanceFrame, id)
  | .setReady => .next { s with pool := { s.pool with renderReady := true } }

/-- Transitions of the render context one after the other. -/
def runRen : List RenOp → State → Out
  | [], s => .next s
  | op :: ops, s => andThen (s.renOp op) (runRen ops)

/-- The turn the render context takes just before an operation of EMU: the next batch of the schedule (R7, R8; log entry 6). -/
def State.renTurn (s : State) : Out :=
  match s.renBetween with
  | [] => .next s
  | ops :: rest => runRen ops { s with renBetween := rest }

/-! ### EMU's use of the pool (R607, R640, R641) -/

/-- `DRAW <- acquire_free()`, after the render context's turn. -/
def State.acquireDraw (s : State) : Out :=
  andThen s.renTurn fun t =>
    t.locked .emu fun p =>
      match p.acquireFree with
      | some (h, q) => .ok (q, fun u => { u with draw := some h })
      | none => .error (.configError .poolExhausted)

/-- `submit(h, deferred, true, COLOUR)` of R640, after the render context's turn. -/
def State.submitDraw (s : State) (h : Nat) : Out :=
  andThen s.renTurn fun t =>
    t.locked .emu fun p =>
      match p.submit t.cfg.colour h (t.cfg.frameSync != .off) true t.cfg.colour with
      | some q => .ok (q, id)
      | none => .error .poolRole

/-- `blank(to_black)` of R607, after the render context's turn. -/
def State.blankDisplay (s : State) (toBlack : Bool) : Out :=
  andThen s.renTurn fun t => t.locked .emu fun p => .ok (p.blank toBlack, id)

/-- The newly acquired buffer is cleared outside the lock: all paper, and all zero in the chroma storage (R640). -/
def State.clearDraw (s : State) : State :=
  match s.draw with
  | none => s
  | some h =>
    { s with
      pix := s.pix.modify h fun _ => []
      chroma := if s.cfg.colour then s.chroma.modify h fun _ => [] else s.chroma }

/-- EMU acquires and clears a draw buffer (R640, R641). -/
def State.freshDraw (s : State) : Out := andThen s.acquireDraw fun t => .next t.clearDraw

end Sys2Proof.Machine
end

