-- ==== Sys2Proof/Machine/Video.lean ====
section
/-! DEFINITION. Pixel storage (R47, R48), the pixel-generating read of a video byte (R151 to R155) and the flood fill of a sync
region (R645). -/

namespace Sys2Proof.Machine

/-! ### Pixels (R47) -/

/-- Pixel storage with pixel `(x, y)` set to `ink`: bit `7 - (x mod 8)` of byte `y * STRIDE + (x div 8)` (R47). -/
def Memory.setPixel (m : Memory) (stride x y : Nat) (ink : Bool) : Memory :=
  let j := y * stride + x / 8
  let mask := (1 : Byte) <<< (7 - x % 8)
  m.write j (if ink then m.read j ||| mask else m.read j &&& ~~~mask)

/-- Pixel `(x, y)` of a pixel storage (R47). -/
def Memory.pixel (m : Memory) (stride x y : Nat) : Bool := (m.read (y * stride + x / 8)).getLsbD (7 - x % 8)

/-- Is `(x, y)` a pixel of the buffer (R151)? -/
def inBuffer (c : Config) (x y : Int) : Bool := 0 ≤ x && x < c.bufW && 0 ≤ y && y < c.bufH

/-! ### Video bytes (R150 to R155) -/

/-- The lowest address at which opcode fetches may be video bytes (R150, R153). -/
def videoThreshold (c : Config) : Word := if c.m1not then 0xC000 else 0x8000

/-- Is the first opcode byte `b` of a step, fetched from `a`, a video byte (R150, R155)? -/
def isVideoByte (c : Config) (a : Word) (b : Byte) : Bool := decide (videoThreshold c ≤ a) && !b.getLsbD 6

/-- The default pattern address: `I[7:1]`, the code `b[5:0]`, the row (R152). -/
def patternAddr (i b : Byte) (row : BitVec 3) : Word :=
  joinBytes (i &&& 0xFE) 0 ||| ((b &&& 0x3F).setWidth 16 <<< 3) ||| row.setWidth 16

/-- `PATTERN_FN(I, b, ROW)` (R152): the byte at the pattern address, or, while `UDG` is on, a free value. -/
def State.pattern (s : State) (b : Byte) : Byte :=
  if s.cfg.udg then Config.udgPattern s.freeCount s.cpu.i b s.ula.row
  else s.memRead (patternAddr s.cpu.i b s.ula.row)

/-- The eight pixels of a video byte: the pattern, inverted when bit 7 of the byte is 1 (R151). -/
def State.videoPixels (s : State) (b : Byte) : Byte := if b.getLsbD 7 then ~~~s.pattern b else s.pattern b

/-- The buffer column of the leftmost pixel of a video byte (R151). -/
def State.videoColumn (s : State) : Int := s.ula.rasterX.toInt + s.cfg.pixOffsetX - s.cfg.winX0

/-- The buffer row of a video byte (R151). -/
def State.videoRow (s : State) : Int := s.ula.rasterY.toInt - s.cfg.winY0

/-- Pixel `k` of the eight pixels `pix` that start at `(bx, by0)`; outside the buffer it is dropped (R151). -/
def paintPixel (c : Config) (bx by0 : Int) (pix : Byte) (m : Memory) (k : Nat) : Memory :=
  if inBuffer c (bx + k) by0 then m.setPixel c.stride (bx + k).toNat by0.toNat (pix.getLsbD (7 - k)) else m

/-- The eight pixels of a video byte, bit 7 leftmost (R151). -/
def paintByte (c : Config) (bx by0 : Int) (pix : Byte) (m : Memory) : Memory :=
  (List.range 8).foldl (paintPixel c bx by0 pix) m

/-- The attribute byte written for pixel `k` (R151): one for each pixel byte touched. -/
def paintAttrAt (c : Config) (bx by0 : Int) (attr : Byte) (m : Memory) (k : Nat) : Memory :=
  if inBuffer c (bx + k) by0 then m.write (by0.toNat * c.stride + (bx + k).toNat / 8) attr else m

/-- The attribute bytes of a video byte (R151). -/
def paintAttr (c : Config) (bx by0 : Int) (attr : Byte) (m : Memory) : Memory :=
  (List.range 8).foldl (paintAttrAt c bx by0 attr) m

/-- The chroma part of `VideoByte` (R151, D48), with `ATTR_FN` a free value. -/
def State.videoAttr (s : State) (h : Nat) (b : Byte) (a : Word) : State :=
  if s.cfg.colour then
    { s.drawn with
      chroma := s.chroma.modify h
        (paintAttr s.cfg s.videoColumn s.videoRow (Config.attrFn s.freeCount s.cpu.i b s.ula.row a)) }
  else s

/-- `VideoByte(b, addr)` (R151). -/
def State.videoByte (s : State) (b : Byte) (a : Word) : State :=
  match s.draw with
  | none => s
  | some h =>
    let painted := { s with
      pix := s.pix.modify h (paintByte s.cfg s.videoColumn s.videoRow (s.videoPixels b)) }
    (if s.cfg.udg then painted.drawn else painted).videoAttr h b a

/-! ### Flood fill (R645) -/

/-- `Lin(bx, by)`: the linear pixel index, clipped to the buffer (R645). -/
def linearIndex (c : Config) (bx by0 : Int) : Nat :=
  if by0 < 0 then 0
  else if c.bufH ≤ by0 then c.bufW * c.bufH
  else by0.toNat * c.bufW + (min (max bx 0) c.bufW).toNat

/-- `Fill(a, a + n)` (R645). -/
def fillRun (c : Config) (m : Memory) : Nat → Nat → Memory
  | 0, _ => m
  | n + 1, a => fillRun c (m.setPixel c.stride (a % c.bufW) (a / c.bufW) Config.syncFill) n (a + 1)

/-- `Fill(a, b)`, half-open (R645). -/
def fillRange (c : Config) (m : Memory) (a b : Nat) : Memory := fillRun c m (b - a) a

/-- The region between two linear indices, wrapping past the bottom edge when the end comes first (R645). -/
def fillRegion (c : Config) (m : Memory) (start stop : Nat) : Memory :=
  if start ≤ stop then fillRange c m start stop
  else fillRange c (fillRange c m start (c.bufW * c.bufH)) 0 stop

/-- `FloodFill(x0, y0, x1, y1)` (R645). -/
def State.floodFill (s : State) (x0 y0 x1 y1 : Int) : State :=
  match s.draw with
  | none => s
  | some h =>
    let start := linearIndex s.cfg (x0 + s.cfg.pixOffsetX - s.cfg.winX0) (y0 - s.cfg.winY0)
    let stop := linearIndex s.cfg (x1 + s.cfg.pixOffsetX - s.cfg.winX0) (y1 - s.cfg.winY0)
    { s with pix := s.pix.modify h fun m => fillRegion s.cfg m start stop }

end Sys2Proof.Machine
end

