-- ==== Sys2Proof/Machine/Ula.lean ====
section
/-! DEFINITION. The raster and sync state machine of both variants (R600 to R655), its port events (R503 to R508), and the
cycle counter with the field tick (R160, R161). -/

namespace Sys2Proof.Machine

/-! ### Common parts -/

/-- The state with another raster and sync record. -/
def State.setUla (s : State) (u : Ula) : State := { s with ula := u }

/-- `InWindow()` (R603). -/
def State.inWindow (s : State) : Bool :=
  decide (s.cfg.winX0 ≤ s.ula.rasterX.toInt + s.cfg.pixOffsetX) &&
  decide (s.ula.rasterX.toInt + s.cfg.pixOffsetX < s.cfg.winX0 + s.cfg.bufW) &&
  decide (s.cfg.winY0 ≤ s.ula.rasterY.toInt) && decide (s.ula.rasterY.toInt < s.cfg.winY0 + s.cfg.bufH)

/-- `HsyncEdge(held)` (R604, R605). -/
def State.hsyncEdge (s : State) (held : Bool) : State :=
  { s with
    ula := { s.ula with rasterX := 0, rasterY := s.ula.rasterY + 1, row := if held then 0 else s.ula.row + 1 }
    ev := { s.ev with lineBoundary := true, rowStale := true } }

/-- `FieldHandOff()` (R640): the draw buffer, if any, is submitted, and a fresh one acquired and cleared. -/
def State.fieldHandOff (s : State) : Out :=
  match s.draw with
  | none => s.freshDraw
  | some h => andThen (s.submitDraw h) State.freshDraw

/-- What `FieldBoundary` and `SyncLoss` both do: `RasterY <- 0; EV.field_boundary <- true` (R607, R608). -/
def State.newField (s : State) : State :=
  { s with ula := { s.ula with rasterY := 0 }, ev := { s.ev with fieldBoundary := true } }

/-- `FieldBoundary()` (R608). -/
def State.fieldBoundary (s : State) : Out := s.newField.fieldHandOff

/-- `SyncLoss()` (R607). -/
def State.syncLoss (s : State) : Out :=
  andThen (s.blankDisplay s.cfg.syncLossBlack) fun t => .next t.newField

/-- The horizontal clamp (R606): a forced line boundary, which leaves `ROW` and `row_stale` alone. -/
def State.clampLine (s : State) : State :=
  if (s.cfg.lineMax : Int) ≤ s.ula.rasterX.toInt then
    { s with
      ula := { s.ula with rasterX := 0, rasterY := s.ula.rasterY + 1 }
      ev := { s.ev with lineBoundary := true } }
  else s

/-- `Clamp()` (R606, R607). -/
def State.clamp (s : State) : Out :=
  if (s.cfg.fieldMaxLines : Int) ≤ s.clampLine.ula.rasterY.toInt then s.clampLine.syncLoss else .next s.clampLine

/-- A saturating count of T-states (R610, R620). -/
def saturatingSucc (n : BitVec 32) : BitVec 32 := if n = 0xFFFFFFFF then n else n + 1

/-! ### Variant A (R610 to R616) -/

/-- `VsyncSet()` (R614). -/
def State.vsyncSet (s : State) : State :=
  if s.ula.vsyncState then s
  else s.setUla { s.ula with vsyncState := true, syncLen := 0, vsX := s.ula.rasterX, vsY := s.ula.rasterY }

/-- `FloodFill(VS_X, VS_Y, RasterX, RasterY)`: the region of the pulse that ends now (R615, R620). -/
def State.fillPulse (s : State) : State :=
  s.floodFill s.ula.vsX.toInt s.ula.vsY.toInt s.ula.rasterX.toInt s.ula.rasterY.toInt

/-- `VsyncClear()` (R615). -/
def State.vsyncClear (s : State) : Out :=
  if s.ula.vsyncState then
    let t := (s.setUla { s.ula with vsyncState := false }).fillPulse
    if s.cfg.vsyncThreshold ≤ s.ula.syncLen.toNat then t.fieldBoundary else .next t
  else .next s

/-- `NmiOn()` and `NmiOff()` (R613). -/
def State.setNmiGen (s : State) (on : Bool) : State := s.setUla { s.ula with nmiGenOn := on }

/-- The part of `TickA()` before its edge (R610, R611): the raster, the modulo counter and the pulse level. -/
def Ula.countA (u : Ula) (c : Config) : Ula :=
  let n := (u.hsCounter + 1) % c.lineTs
  { u with rasterX := u.rasterX + BitVec.ofNat 32 c.xPerT, hsCounter := n, hsyncState := hsyncLevel c n }

/-- `TickA()` (R610, R612, R616). -/
def State.tickA (s : State) : State :=
  let t := s.setUla (s.ula.countA s.cfg)
  let t :=
    if t.ula.hsCounter = s.cfg.hsOffset then
      let e := t.hsyncEdge t.ula.vsyncState
      if e.ula.nmiGenOn then e.setUla { e.ula with nmiPending := true } else e
    else t
  if t.ula.vsyncState then t.setUla { t.ula with syncLen := saturatingSucc t.ula.syncLen } else t

/-! ### Variant B (R620 to R626) -/

/-- `SyncOn()` and `SyncOff()` (R621). -/
def State.setL1 (s : State) (on : Bool) : State := s.setUla { s.ula with l1 := on }

/-- The default `LATCH_FN` (R620, R622, R623): the acknowledge pulse, the composite level `L1 | L2`, its edges against `L3`, and the
pulse length. `L2_LEN` keeps its low 32 bits, so that 2^32 - 1 counts on to 0: R620 states a saturation for `SYNC_LEN` only.
DEDUCED from R11 (log entry 14). -/
def standardLatches (c : Config) (v : Latches) : LatchStep :=
  let len := if v.l2 then v.l2Len + 1 else v.l2Len
  let l2 := v.l2 && decide (len.toNat < c.hsWidthB)
  let comp := v.l1 || l2
  let counted := if comp && !v.l3 then 0 else v.syncLen
  { latches := { v with l2, l3 := comp, l2Len := len, syncLen := if comp then saturatingSucc counted else counted }
    rises := comp && !v.l3
    falls := !comp && v.l3 }

/-- `LATCH_FN` (R9): the default equations, or the free function. -/
def latchStep (c : Config) (v : Latches) : LatchStep :=
  match c.latch with
  | .standard => standardLatches c v
  | .other => Config.latchFn v

/-- The latches and the accumulator of variant B. -/
def Ula.latches (u : Ula) : Latches := ⟨u.l1, u.l2, u.l3, u.l2Len, u.syncLen⟩

/-- The raster and sync record with other latches. -/
def Ula.setLatches (u : Ula) (v : Latches) : Ula :=
  { u with l1 := v.l1, l2 := v.l2, l3 := v.l3, l2Len := v.l2Len, syncLen := v.syncLen }

/-- The part of `TickB()` before the classification (R620): the raster, the latches, and the corner where a pulse begins. `L3` takes
its new value here and not after the classification, which does not read it. -/
def Ula.countB (u : Ula) (c : Config) : Ula :=
  let t := latchStep c u.latches
  let x := u.rasterX + BitVec.ofNat 32 c.xPerT
  let v := { u.setLatches t.latches with rasterX := x }
  if t.rises then { v with vsX := x, vsY := u.rasterY } else v

/-- What `TickB()` does at the falling edge of the composite sync (R620, R625). -/
def State.classifyB (s : State) : Out :=
  if s.cfg.vsyncThreshold ≤ s.ula.syncLen.toNat then
    let t := s.fillPulse
    (t.setUla { t.ula with rowHold := true }).fieldBoundary
  else
    let t := s.hsyncEdge s.ula.rowHold
    .next (t.setUla { t.ula with rowHold := false })

/-- `TickB()` (R620). -/
def State.tickB (s : State) : Out :=
  let t := s.setUla (s.ula.countB s.cfg)
  if (latchStep s.cfg s.ula.latches).falls then t.classifyB else .next t

/-! ### The advance (R600, R635) -/

/-- One T-state of `SyncAdvance` (R600). -/
def State.tick (s : State) : Out :=
  match s.cfg.machine with
  | .nmiVariant => s.tickA.clamp
  | .ffVariant => andThen s.tickB State.clamp

/-- `n` T-states. -/
def ticks : Nat → State → Out
  | 0, s => .next s
  | n + 1, s => andThen s.tick (ticks n)

/-- The fourteen sync-state fields, in the order of R773. -/
def Ula.syncFields (u : Ula) : List Int :=
  [u.row.toNat, u.syncLen.toNat, u.vsX.toInt, u.vsY.toInt, u.hsyncState.toInt, u.vsyncState.toInt, u.hsCounter, u.nmiGenOn.toInt,
    u.nmiPending.toInt, u.l1.toInt, u.l2.toInt, u.l3.toInt, u.l2Len.toNat, u.rowHold.toInt]

/-- `INT_GEN <- INT_GEN_FN(sync state)` (R635). -/
def State.refreshIntGen (s : State) : State :=
  s.setUla { s.ula with intGen := intGenOf s.cfg s.ula.syncFields }

/-- `SyncAdvance(c)` (R600). -/
def State.syncAdvance (s : State) (c : Nat) : Out := andThen (ticks c s) fun t => .next t.refreshIntGen

/-! ### The cycle counter (R160, R161) -/

/-- `FieldTick()` (R161): the change list of the sound subsystem is flushed; nothing else changes. -/
def State.fieldTick (s : State) : State := { s with soundFlushed := s.soundLog, soundLog := [] }

/-- `FieldTick()`, `n` times. -/
def State.fieldTicks (s : State) : Nat → State
  | 0 => s
  | n + 1 => s.fieldTick.fieldTicks n

/-- `CounterAdvance(c)` (R160). -/
def State.counterAdvance (s : State) (c : Nat) : State :=
  let t := s.ts + c
  let n := t / s.cfg.fieldModulus
  { s with ts := t % s.cfg.fieldModulus, frames := s.frames + BitVec.ofNat 32 n }.fieldTicks n

/-! ### The port interface (R503 to R508) -/

/-- A sync event, in the machine it belongs to; in the other it does nothing, for the state of the variant not selected stays at its
reset value (R601). -/
def State.syncAct (s : State) (act : SyncAct) : Out :=
  match s.cfg.machine, act with
  | .nmiVariant, .vsyncSet => .next s.vsyncSet
  | .nmiVariant, .vsyncClear => s.vsyncClear
  | .nmiVariant, .nmiOn => .next (s.setNmiGen true)
  | .nmiVariant, .nmiOff => .next (s.setNmiGen false)
  | .ffVariant, .syncOn => .next (s.setL1 true)
  | .ffVariant, .syncOff => .next (s.setL1 false)
  | .nmiVariant, .syncOn => .next s
  | .nmiVariant, .syncOff => .next s
  | .ffVariant, .vsyncSet => .next s
  | .ffVariant, .vsyncClear => .next s
  | .ffVariant, .nmiOn => .next s
  | .ffVariant, .nmiOff => .next s

/-- Does a row of `PORT_DECODE` match an access? -/
def State.portMatches (s : State) (access : PortAccess) (port : Word) (r : PortRule) : Bool :=
  r.access == access && port &&& r.mask == r.value && !(r.generatorOff && s.ula.nmiGenOn)

/-- The sync events of an access under a table: the rows act in their order. -/
def portEvents (access : PortAccess) (port : Word) : List PortRule → State → Out
  | [], s => .next s
  | r :: rs, s =>
    andThen (if s.portMatches access port r then s.syncAct r.act else .next s) (portEvents access port rs)

/-- `PortReadEvents(port)` (R505). -/
def State.portReadEvents (s : State) (port : Word) : Out := portEvents .read port s.cfg.portDecode s

/-- `PortWriteEvents(port)` (R506). -/
def State.portWriteEvents (s : State) (port : Word) : Out := portEvents .write port s.cfg.portDecode s

/-- `PortRead(port)` (R503): the sync events, then a byte of `PortIn`, an oracle, that `use` takes. -/
def State.portRead (s : State) (port : Word) (use : Byte → State → State) : Out :=
  andThen (s.portReadEvents port) fun t => .next (use (Config.portIn t.freeCount port) t.drawn)

/-- `SOUND_PORT(port)` (R507). -/
def soundRelevant (c : Config) (port : Word) : Bool := c.soundPorts.any fun m => port &&& m.1 == m.2

/-- `emit SoundWrite(port, v, FRAMES, TS)` when the port is sound-relevant (R504, R507). -/
def State.soundHook (s : State) (port : Word) (v : Byte) : State :=
  if soundRelevant s.cfg port then { s with soundLog := s.soundLog ++ [⟨port, v, s.frames, s.ts⟩] } else s

/-- `PortWrite(port, v)` (R504). -/
def State.portWrite (s : State) (port : Word) (v : Byte) : Out :=
  andThen (s.portWriteEvents port) fun t => .next (t.soundHook port v)

end Sys2Proof.Machine
end

