-- ==== Sys2Proof/Machine/Snapshot.lean ====
section
/-! DEFINITION. The persisted snapshot: its 102 bytes (R770 to R774), `save` (R775), `load` (R776) and the reductions and failures
of R777. -/

namespace Sys2Proof.Machine

/-- The length of a snapshot, `SNAP_LEN` (R770). -/
def snapLen : Nat := 102

/-! ### Writing -/

/-- A 16-bit field, least significant byte first (R770). -/
def le16 (w : Word) : List Byte := [loByte w, hiByte w]

/-- A 32-bit field, least significant byte first (R770). -/
def le32 (w : BitVec 32) : List Byte :=
  [w.extractLsb' 0 8, w.extractLsb' 8 8, w.extractLsb' 16 8, w.extractLsb' 24 8]

/-- A one-byte flag: 0x00 or 0x01 (R771, R774). -/
def flagByte (b : Bool) : Byte := if b then 1 else 0

/-- A 32-bit flag: 0 or 1 (R773). -/
def flag32 (b : Bool) : List Byte := le32 (if b then 1 else 0)

/-- The byte of `IM` (R771). -/
def imByte : IntMode → Byte
  | .im0 => 0
  | .im1 => 1
  | .im2 => 2

/-- The byte of `PFX` (R771). -/
def pfxByte : Pfx → Byte
  | .none => 0
  | .ix => 1
  | .iy => 2

/-- The byte of `BLANK_COLOUR` (R774). -/
def blankByte : BlankColour → Byte
  | .black => 0
  | .white => 1

/-- Part 1: the register file (R771). -/
def snapRegisters (c : Cpu) : List Byte :=
  [c.a, c.f, c.b, c.c, c.d, c.e, c.h, c.l, c.a2, c.f2, c.b2, c.c2, c.d2, c.e2, c.h2, c.l2, c.i, flagByte c.iff1,
    flagByte c.iff2, imByte c.im] ++ le16 c.ix ++ le16 c.iy ++ le16 c.sp ++ le16 c.pc ++ [c.r, pfxByte c.pfx]

/-- Part 2: the cycle counter and the raster position (R772). -/
def snapRaster (s : State) : List Byte :=
  le32 (BitVec.ofNat 32 s.ts) ++ le32 s.ula.rasterX ++ le32 s.ula.rasterY

/-- Part 3: the sync state (R773). -/
def snapSync (u : Ula) : List Byte :=
  le32 (u.row.setWidth 32) ++ le32 u.syncLen ++ le32 u.vsX ++ le32 u.vsY ++
    flag32 u.hsyncState ++ flag32 u.vsyncState ++ le32 (BitVec.ofNat 32 u.hsCounter) ++ flag32 u.nmiGenOn ++
    flag32 u.nmiPending ++ flag32 u.l1 ++ flag32 u.l2 ++ flag32 u.l3 ++ le32 u.l2Len ++ flag32 u.rowHold

/-- Part 4: the pool metadata (R774). -/
def snapPool (p : Pool) : List Byte :=
  [flagByte p.blanked, blankByte p.blankColour, flagByte p.interlace, flagByte p.frameParity]

/-- The bytes of a snapshot, in offset order (R770). -/
def snapBytes (s : State) : List Byte :=
  snapRegisters s.cpu ++ snapRaster s ++ snapSync s.ula ++ snapPool s.pool

/-! ### Reading -/

/-- The byte at an offset. -/
def byteAt (bs : List Byte) (k : Nat) : Byte := bs.getD k 0

/-- The 16-bit field at an offset. -/
def wordAt (bs : List Byte) (k : Nat) : Word := joinBytes (byteAt bs (k + 1)) (byteAt bs k)

/-- The 32-bit field at an offset. -/
def longAt (bs : List Byte) (k : Nat) : BitVec 32 :=
  byteAt bs (k + 3) ++ byteAt bs (k + 2) ++ byteAt bs (k + 1) ++ byteAt bs k

/-- A flag at an offset: bit 0 of its first byte (R777). -/
def flagAt (bs : List Byte) (k : Nat) : Bool := (byteAt bs k).getLsbD 0

/-- `IM` takes the value modulo 4, and 3 is read as 0 (R777). -/
def imOfByte (b : Byte) : IntMode :=
  match b.toNat % 4 with
  | 1 => .im1
  | 2 => .im2
  | _ => .im0

/-- Codes other than 1 and 2 read as `none` (R777). -/
def pfxOfByte (b : Byte) : Pfx :=
  match b.toNat with
  | 1 => .ix
  | 2 => .iy
  | _ => .none

/-- `BLANK_COLOUR` takes bit 0 (R777). -/
def blankOfByte (b : Byte) : BlankColour := if b.getLsbD 0 then .white else .black

/-- The register file of a snapshot; `HALTED` and `EI_DELAY` are cleared (R771, R776). -/
def loadCpu (bs : List Byte) : Cpu where
  a := byteAt bs 0
  f := byteAt bs 1
  b := byteAt bs 2
  c := byteAt bs 3
  d := byteAt bs 4
  e := byteAt bs 5
  h := byteAt bs 6
  l := byteAt bs 7
  a2 := byteAt bs 8
  f2 := byteAt bs 9
  b2 := byteAt bs 10
  c2 := byteAt bs 11
  d2 := byteAt bs 12
  e2 := byteAt bs 13
  h2 := byteAt bs 14
  l2 := byteAt bs 15
  i := byteAt bs 16
  iff1 := flagAt bs 17
  iff2 := flagAt bs 18
  im := imOfByte (byteAt bs 19)
  ix := wordAt bs 20
  iy := wordAt bs 22
  sp := wordAt bs 24
  pc := wordAt bs 26
  r := byteAt bs 28
  pfx := pfxOfByte (byteAt bs 29)
  halted := false
  eiDelay := false

/-- The raster and sync state of a snapshot (R772, R773); `INT_GEN` is computed afterwards. A loaded `HS_COUNTER` of `LINE_TS` or more
is kept as it is and reduced by the next tick: R42 bounds it, and R777 lists no reduction for it. DESIGN CHOICE (log entry 14). -/
def loadUla (u : Ula) (bs : List Byte) : Ula where
  rasterX := longAt bs 34
  rasterY := longAt bs 38
  row := (longAt bs 42).setWidth 3
  syncLen := longAt bs 46
  vsX := longAt bs 50
  vsY := longAt bs 54
  hsyncState := flagAt bs 58
  vsyncState := flagAt bs 62
  hsCounter := (longAt bs 66).toNat
  nmiGenOn := flagAt bs 70
  nmiPending := flagAt bs 74
  l1 := flagAt bs 78
  l2 := flagAt bs 82
  l3 := flagAt bs 86
  l2Len := longAt bs 90
  rowHold := flagAt bs 94
  intGen := u.intGen

/-- The pool metadata of a snapshot; no handle moves (R774, R779). -/
def loadPool (p : Pool) (bs : List Byte) : Pool :=
  { p with
    blanked := flagAt bs 98
    blankColour := blankOfByte (byteAt bs 99)
    interlace := flagAt bs 100
    frameParity := flagAt bs 101 }

/-- The state after the fields are assigned (R776). -/
def State.loadFields (s : State) (bs : List Byte) : State :=
  { s with
    cpu := loadCpu bs
    ts := (longAt bs 30).toNat % s.cfg.fieldModulus
    ula := loadUla s.ula bs
    pool := loadPool s.pool bs }.refreshIntGen

/-! ### The two operations -/

/-- `save()`: the sink takes `sinkTakes` bytes before it fails; saving never changes the state but for its report (R775). -/
def State.save (s : State) (sinkTakes : Nat) : State :=
  { s with hostResult := if snapLen ≤ sinkTakes then .saved (snapBytes s) else .saveFailed }

/-- `load(bytes)`: a source of fewer than 102 bytes is a read failure, and the state stays as it was (R776, R777). -/
def State.load (s : State) (bs : List Byte) : State :=
  if snapLen ≤ bs.length then { s.loadFields bs with hostResult := .loaded } else { s with hostResult := .loadFailed }

end Sys2Proof.Machine
end

