-- ==== Sys2Proof/Machine/Agents.lean ====
section
/-! DEFINITION. The actions of HOST at a step boundary (R165, R887): power-on initialisation (R830, R870), machine reset (R871), a
page-table rebuild and a change of its inputs (R75), a change of the toggles, and the snapshot operations; and one action of the agenda. -/

namespace Sys2Proof.Machine

/-- Machine reset (R871): the CPU, page-table, counter, raster, sync and interrupt-request rows of R51; storage, pool, `DRAW` and
pixels stay. -/
def State.machineReset (s : State) : State :=
  { s with cpu := Cpu.reset, pt := s.cfg.ptInit, ts := 0, frames := 0, ula := Ula.reset s.cfg }

/-- A page-table rebuild (R75): the new table, with no ROM page writable (R72), becomes `PT` and `PT_INIT`; a table that names
storage outside `PHYS` is a configuration error (R830). -/
def State.rebuildPages (s : State) (requested : PageTable) : Out :=
  if Config.pagesInside s.cfg requested then
    .next { s with
      cfg := { s.cfg with ptInit := Config.protectRom s.cfg requested }
      pt := Config.protectRom s.cfg requested }
  else .fault (.configError .pageTable)

/-- A storage with bytes written from an address on. -/
def Memory.writeBytes (m : Memory) (a : Nat) : List Byte → Memory
  | [] => m
  | v :: vs => Memory.writeBytes (m.write a v) (a + 1) vs

/-- The storage with a ROM image laid into its ROM part, the `bytes` bytes from 0 on (R870). -/
def Memory.withRom (m : Memory) (bytes : Nat) (image : List Byte) : Memory := m.writeBytes 0 (image.take bytes)

/-- Does the default map of R75 speak of these inputs: `RAM_SIZE` of 1 to 16 KB, a ROM of 4 or 8 KB? -/
def defaultMapGiven (c : Config) : Bool :=
  1 ≤ c.ramSize && c.ramSize ≤ 16 && (c.romBytes == 4096 || c.romBytes == 8192)

/-- The default map of R75 for the inputs in the parameters. -/
def defaultMap (c : Config) : PageTable := Config.defaultPages (c.romBytes / Config.pageSize) c.ramSize c.lowRam

/-- The parameters with new inputs of the page-table build; without a new `ROM_VARIANT` the ROM stays. -/
def changedInputs (c : Config) (inputs : MemoryInputs) : Config :=
  { c with
    ramSize := inputs.ramSize
    lowRam := inputs.lowRam
    romBytes := match inputs.rom with
      | none => c.romBytes
      | some v => v.bytes }

/-- The page table is built for the inputs in the parameters (R75): the map given, or the default map. Inputs the default map does
not speak of are a configuration error when no map is given. DESIGN CHOICE (log entry 18). -/
def State.buildPages (s : State) (map : Option PageTable) : Out :=
  match map with
  | some requested => s.rebuildPages requested
  | none => if defaultMapGiven s.cfg then s.rebuildPages (defaultMap s.cfg) else .fault (.configError .parameter)

/-- A change of `RAM_SIZE`, `LOW_RAM` or `ROM_VARIANT` (R75): a new variant's image is laid into the ROM part of `PHYS`, and the
table is built for the new inputs, so that R72 (b) holds for the new ROM; a variant without an image is `rom_missing` (R830).
DESIGN CHOICE (log entry 18): R75 says that the table is rebuilt, and not what becomes of `PHYS`. -/
def State.changeMemory (s : State) (inputs : MemoryInputs) (map : Option PageTable) : Out :=
  let t := { s with cfg := changedInputs s.cfg inputs }
  match inputs.rom with
  | none => t.buildPages map
  | some ⟨_, none⟩ => .fault (.configError .romMissing)
  | some ⟨bytes, some image⟩ => { t with phys := s.phys.withRom bytes image }.buildPages map

/-- A change of the toggles (R887). -/
def State.setToggles (s : State) (m1not udg colour : Bool) : State :=
  { s with cfg := { s.cfg with m1not := m1not, udg := udg, colour := colour } }

/-- An operation of HOST that reads or writes pool metadata, which it does under the lock (R775, R776). -/
def State.hostLocked (s : State) (after : State) : Out :=
  if s.pool.lock = .free then .next after else .fault .lockHeld

/-- An action of HOST between two `EmuCycle`s (R165, R887). It has the same effect before EMU's first `EmuCycle`, of which neither
rule speaks. DESIGN CHOICE (log entry 6). -/
def State.hostOp (s : State) (op : HostOp) : Out :=
  match op with
  | .machineReset => .next s.machineReset
  | .rebuildPages requested => s.rebuildPages requested
  | .changeMemory inputs map => s.changeMemory inputs map
  | .setToggles m1not udg colour => .next (s.setToggles m1not udg colour)
  | .save sinkTakes => s.hostLocked (s.save sinkTakes)
  | .load bytes => s.hostLocked (s.load bytes)

/-- An action of an agent other than EMU. -/
def State.act (s : State) (a : Action) : Out :=
  match a with
  | .ren op => s.renOp op
  | .host op => s.hostOp op

/-- Power-on initialisation (R870): the constraints of R10 and R830 are checked, the ROM image is laid into the storage that holds
whatever RAM holds, and every row of R51 and R703 takes its value. A `PT_INIT` with a writable page in the ROM image, which R75
forbids without saying what then happens, is answered as `page_table`. DESIGN CHOICE (log entry 20). -/
def powerOn (c : Config) (rom : Option (List Byte)) (ram : Memory) : Out :=
  if !Config.poolCapOk c then .fault (.configError .poolCapacity)
  else if !Config.parametersOk c then .fault (.configError .parameter)
  else if !Config.pagesInside c c.ptInit || !Config.romProtected c c.ptInit then .fault (.configError .pageTable)
  else
    match rom with
    | none => .fault (.configError .romMissing)
    | some image => .next (State.powerOn c (ram.withRom c.romBytes image))

end Sys2Proof.Machine
end

