-- ==== Sys2Proof/WellFormed.lean ====
section
/-! DEFINITION. Which terms of `Instr` are instructions: the operand values a row's `exclude` list or its field `w` gives to
another row (R130) are refused. Every other operand is well formed by its type. -/

namespace Sys2Proof

/-- The second bytes on which an index prefix has an effect, 0x00 to 0x3F: Map 4 of spec/30_encoding.md. -/
def mapFourLow : List Nat :=
  [0x09, 0x19, 0x21, 0x22, 0x23, 0x24, 0x25, 0x26, 0x29, 0x2A, 0x2B, 0x2C, 0x2D, 0x2E, 0x34, 0x35, 0x36, 0x39]

/-- Map 4, 0x40 to 0x7F: the loads. -/
def mapFourLoads : List Nat :=
  [0x44, 0x45, 0x46, 0x4C, 0x4D, 0x4E, 0x54, 0x55, 0x56, 0x5C, 0x5D, 0x5E, 0x60, 0x61, 0x62, 0x63, 0x64, 0x65, 0x66, 0x67,
   0x68, 0x69, 0x6A, 0x6B, 0x6C, 0x6D, 0x6E, 0x6F, 0x70, 0x71, 0x72, 0x73, 0x74, 0x75, 0x77, 0x7C, 0x7D, 0x7E]

/-- Map 4, 0x80 to 0xFF: the accumulator operations, the indexed CB table and the stack and jump forms. -/
def mapFourHigh : List Nat :=
  [0x84, 0x85, 0x86, 0x8C, 0x8D, 0x8E, 0x94, 0x95, 0x96, 0x9C, 0x9D, 0x9E, 0xA4, 0xA5, 0xA6, 0xAC, 0xAD, 0xAE, 0xB4, 0xB5,
   0xB6, 0xBC, 0xBD, 0xBE, 0xCB, 0xE1, 0xE3, 0xE5, 0xE9, 0xF9]

/-- Is `op` a second byte that Map 4 lists (R120, R566)? -/
def inMapFour (op : Byte) : Bool :=
  mapFourLow.contains op.toNat || mapFourLoads.contains op.toNat || mapFourHigh.contains op.toNat

/-- Is `op` one of the two index-prefix bytes 0xDD and 0xFD (R119)? -/
def isIndexPrefix (op : Byte) : Bool := op == 0xDD || op == 0xFD

/-- The second bytes of the undefined row of the ED table (R565): outside 0x40 to 0x7F and outside the sixteen block opcodes. -/
def isUndefinedEd (op : Byte) : Bool :=
  !(0x40 ≤ op.toNat && op.toNat ≤ 0x7F) &&
  !([0xA0, 0xA1, 0xA2, 0xA3, 0xA8, 0xA9, 0xAA, 0xAB, 0xB0, 0xB1, 0xB2, 0xB3, 0xB8, 0xB9, 0xBA, 0xBB].contains op.toNat)

/-- Well-formedness of an instruction: the excluded operand values of R130. -/
def Instr.wf : Instr → Bool
  | .negMirror v => v != 0
  | .retnMirror v => v != 0 && v != 1
  | .nopEdUndefined w => isUndefinedEd w
  | .ldHalfR _ _ r => r != .h && r != .l
  | .indexPrefixNoEffect _ w => !inMapFour w && !isIndexPrefix w
  | _ => true

/-- The instructions that reach the port space (R500, R559, R560). -/
def Instr.isPort : Instr → Bool
  | .outNA _ => true
  | .inAN _ => true
  | .inRC _ => true
  | .inFC => true
  | .outCR _ => true
  | .outC0 => true
  | .ini => true
  | .outi => true
  | .ind => true
  | .outd => true
  | .inir => true
  | .otir => true
  | .indr => true
  | .otdr => true
  | _ => false

/-- The prefix rows: bytes that lead to an instruction and are none of their own (R119, R123, R566). -/
def Instr.isPrefixRow : Instr → Bool
  | .prefixCb => true
  | .prefixDd => true
  | .prefixEd => true
  | .prefixFd => true
  | .prefixIdxCb _ => true
  | .indexPrefixNoEffect _ _ => true
  | _ => false

end Sys2Proof
end

