-- ==== Sys2Proof/Decode.lean ====
section
/-! DEFINITION. The decoder, written from R110 to R124 and the five opcode maps by the fields x, y, z, p, q of R111; after it
the encoder, written from the patterns of spec/opcode_table.json; and the reading of a table word (`decodeTableWord`). -/

namespace Sys2Proof

open Machine

/-- Why a byte list holds no whole instruction. Every sequence of at least four bytes decodes (R125). -/
inductive DecodeError where
  /-- The list is empty. -/
  | noBytes
  /-- The list ends inside an instruction. -/
  | truncated
  deriving DecidableEq, Repr

/-- What a decoder answers: the instruction and its length in bytes, or a named rejection. -/
abbrev Decoded := Except DecodeError (Instr × Nat)

/-! ### Operand codes -/

/-- The register of a 3-bit code; code 6 is no register (R113). -/
def Reg8.ofCode (k : BitVec 3) : Option Reg8 :=
  match k.toNat with
  | 0 => some .b
  | 1 => some .c
  | 2 => some .d
  | 3 => some .e
  | 4 => some .h
  | 5 => some .l
  | 6 => none
  | _ => some .a

/-- `rp[p]` of R114. -/
def Pair.ofCode (k : BitVec 2) : Pair :=
  match k.toNat with
  | 0 => .bc
  | 1 => .de
  | 2 => .hl
  | _ => .sp

/-- `rp2[p]` of R114. -/
def StackPair.ofCode (k : BitVec 2) : StackPair :=
  match k.toNat with
  | 0 => .bc
  | 1 => .de
  | 2 => .hl
  | _ => .af

/-- `pp` and `rr` of R114, R343. -/
def IdxPair.ofCode (k : BitVec 2) : IdxPair :=
  match k.toNat with
  | 0 => .bc
  | 1 => .de
  | 2 => .own
  | _ => .sp

/-- The condition of a 3-bit code (R115). -/
def Cond.ofCode (k : BitVec 3) : Cond :=
  match k.toNat with
  | 0 => .nz
  | 1 => .z
  | 2 => .nc
  | 3 => .c
  | 4 => .po
  | 5 => .pe
  | 6 => .p
  | _ => .m

/-! ### Operand bytes (R110, R116) -/

/-- An opcode of `len` bytes followed by one operand byte. -/
def withByte (len : Nat) (rest : List Byte) (f : Byte → Instr) : Decoded :=
  match rest with
  | n :: _ => .ok (f n, len + 1)
  | [] => .error .truncated

/-- An opcode of `len` bytes followed by a 16-bit operand, low byte first. -/
def withWord (len : Nat) (rest : List Byte) (f : Word → Instr) : Decoded :=
  match rest with
  | l :: h :: _ => .ok (f (joinBytes h l), len + 2)
  | _ => .error .truncated

/-- An opcode of `len` bytes followed by a displacement and an immediate byte. -/
def withTwoBytes (len : Nat) (rest : List Byte) (f : Byte → Byte → Instr) : Decoded :=
  match rest with
  | d :: n :: _ => .ok (f d n, len + 2)
  | _ => .error .truncated

/-! ### The operation at field y -/

/-- Accumulator operation y on a register (R300). -/
def aluReg (y : BitVec 3) (r : Reg8) : Instr :=
  match y.toNat with
  | 0 => .addAR r
  | 1 => .adcAR r
  | 2 => .subR r
  | 3 => .sbcAR r
  | 4 => .andR r
  | 5 => .xorR r
  | 6 => .orR r
  | _ => .cpR r

/-- Accumulator operation y on `(HL)` (R300). -/
def aluAtHl (y : BitVec 3) : Instr :=
  match y.toNat with
  | 0 => .addAAtHl
  | 1 => .adcAAtHl
  | 2 => .subAtHl
  | 3 => .sbcAAtHl
  | 4 => .andAtHl
  | 5 => .xorAtHl
  | 6 => .orAtHl
  | _ => .cpAtHl

/-- Accumulator operation y on an immediate (R300). -/
def aluImm (y : BitVec 3) (n : Byte) : Instr :=
  match y.toNat with
  | 0 => .addAN n
  | 1 => .adcAN n
  | 2 => .subN n
  | 3 => .sbcAN n
  | 4 => .andN n
  | 5 => .xorN n
  | 6 => .orN n
  | _ => .cpN n

/-- Accumulator operation y on an index half (R553). -/
def aluHalf (y : BitVec 3) (x : Idx) (hf : Half) : Instr :=
  match y.toNat with
  | 0 => .addAHalf x hf
  | 1 => .adcAHalf x hf
  | 2 => .subHalf x hf
  | 3 => .sbcAHalf x hf
  | 4 => .andHalf x hf
  | 5 => .xorHalf x hf
  | 6 => .orHalf x hf
  | _ => .cpHalf x hf

/-- Accumulator operation y on `(IX+d)` (R300). -/
def aluAtIdx (y : BitVec 3) (x : Idx) (d : Byte) : Instr :=
  match y.toNat with
  | 0 => .addAAtIdx x d
  | 1 => .adcAAtIdx x d
  | 2 => .subAtIdx x d
  | 3 => .sbcAAtIdx x d
  | 4 => .andAtIdx x d
  | 5 => .xorAtIdx x d
  | 6 => .orAtIdx x d
  | _ => .cpAtIdx x d

/-- Rotate or shift y of a register (R121). -/
def rotReg (y : BitVec 3) (r : Reg8) : Instr :=
  match y.toNat with
  | 0 => .rlcR r
  | 1 => .rrcR r
  | 2 => .rlR r
  | 3 => .rrR r
  | 4 => .slaR r
  | 5 => .sraR r
  | 6 => .sllR r
  | _ => .srlR r

/-- Rotate or shift y of `(HL)` (R121). -/
def rotAtHl (y : BitVec 3) : Instr :=
  match y.toNat with
  | 0 => .rlcAtHl
  | 1 => .rrcAtHl
  | 2 => .rlAtHl
  | 3 => .rrAtHl
  | 4 => .slaAtHl
  | 5 => .sraAtHl
  | 6 => .sllAtHl
  | _ => .srlAtHl

/-- Rotate or shift y of `(IX+d)` (R123). -/
def rotAtIdx (y : BitVec 3) (x : Idx) (d : Byte) : Instr :=
  match y.toNat with
  | 0 => .rlcAtIdx x d
  | 1 => .rrcAtIdx x d
  | 2 => .rlAtIdx x d
  | 3 => .rrAtIdx x d
  | 4 => .slaAtIdx x d
  | 5 => .sraAtIdx x d
  | 6 => .sllAtIdx x d
  | _ => .srlAtIdx x d

/-- Rotate or shift y of `(IX+d)` with a register copy (R556). -/
def rotAtIdxReg (y : BitVec 3) (x : Idx) (d : Byte) (r : Reg8) : Instr :=
  match y.toNat with
  | 0 => .rlcAtIdxR x d r
  | 1 => .rrcAtIdxR x d r
  | 2 => .rlAtIdxR x d r
  | 3 => .rrAtIdxR x d r
  | 4 => .slaAtIdxR x d r
  | 5 => .sraAtIdxR x d r
  | 6 => .sllAtIdxR x d r
  | _ => .srlAtIdxR x d r

/-! ### The main table (R124, Map 1) -/

/-- x = 0 of the main table. -/
def decodeMain0 (op : Byte) (rest : List Byte) : Decoded :=
  match (fieldZ op).toNat with
  | 0 =>
    match (fieldY op).toNat with
    | 0 => .ok (.nop, 1)
    | 1 => .ok (.exAfAf, 1)
    | 2 => withByte 1 rest .djnz
    | 3 => withByte 1 rest .jr
    | 4 => withByte 1 rest .jrNz
    | 5 => withByte 1 rest .jrZ
    | 6 => withByte 1 rest .jrNc
    | _ => withByte 1 rest .jrC
  | 1 =>
    if fieldQ op then .ok (.addHlPair (Pair.ofCode (fieldP op)), 1)
    else withWord 1 rest (.ldPairNn (Pair.ofCode (fieldP op)))
  | 2 =>
    match (fieldY op).toNat with
    | 0 => .ok (.ldAtBcA, 1)
    | 1 => .ok (.ldAAtBc, 1)
    | 2 => .ok (.ldAtDeA, 1)
    | 3 => .ok (.ldAAtDe, 1)
    | 4 => withWord 1 rest .ldAtNnHl
    | 5 => withWord 1 rest .ldHlAtNn
    | 6 => withWord 1 rest .ldAtNnA
    | _ => withWord 1 rest .ldAAtNn
  | 3 =>
    if fieldQ op then .ok (.decPair (Pair.ofCode (fieldP op)), 1)
    else .ok (.incPair (Pair.ofCode (fieldP op)), 1)
  | 4 =>
    match Reg8.ofCode (fieldY op) with
    | some r => .ok (.incR r, 1)
    | none => .ok (.incAtHl, 1)
  | 5 =>
    match Reg8.ofCode (fieldY op) with
    | some r => .ok (.decR r, 1)
    | none => .ok (.decAtHl, 1)
  | 6 =>
    match Reg8.ofCode (fieldY op) with
    | some r => withByte 1 rest (.ldRN r)
    | none => withByte 1 rest .ldAtHlN
  | _ =>
    match (fieldY op).toNat with
    | 0 => .ok (.rlca, 1)
    | 1 => .ok (.rrca, 1)
    | 2 => .ok (.rla, 1)
    | 3 => .ok (.rra, 1)
    | 4 => .ok (.daa, 1)
    | 5 => .ok (.cpl, 1)
    | 6 => .ok (.scf, 1)
    | _ => .ok (.ccf, 1)

/-- x = 1 of the main table: the register loads and `HALT`. -/
def decodeMain1 (op : Byte) : Instr :=
  match Reg8.ofCode (fieldY op), Reg8.ofCode (fieldZ op) with
  | some r, some r2 => .ldRR r r2
  | some r, none => .ldRAtHl r
  | none, some r => .ldAtHlR r
  | none, none => .halt

/-- x = 2 of the main table: the accumulator operations. -/
def decodeMain2 (op : Byte) : Instr :=
  match Reg8.ofCode (fieldZ op) with
  | some r => aluReg (fieldY op) r
  | none => aluAtHl (fieldY op)

/-- x = 3 of the main table; the four prefix bytes stand in it as the rows of their own. -/
def decodeMain3 (op : Byte) (rest : List Byte) : Decoded :=
  match (fieldZ op).toNat with
  | 0 => .ok (.retCc (Cond.ofCode (fieldY op)), 1)
  | 1 =>
    if fieldQ op then
      match (fieldP op).toNat with
      | 0 => .ok (.ret, 1)
      | 1 => .ok (.exx, 1)
      | 2 => .ok (.jpHl, 1)
      | _ => .ok (.ldSpHl, 1)
    else .ok (.popPair (StackPair.ofCode (fieldP op)), 1)
  | 2 => withWord 1 rest (.jpCcNn (Cond.ofCode (fieldY op)))
  | 3 =>
    match (fieldY op).toNat with
    | 0 => withWord 1 rest .jpNn
    | 1 => .ok (.prefixCb, 1)
    | 2 => withByte 1 rest .outNA
    | 3 => withByte 1 rest .inAN
    | 4 => .ok (.exAtSpHl, 1)
    | 5 => .ok (.exDeHl, 1)
    | 6 => .ok (.di, 1)
    | _ => .ok (.ei, 1)
  | 4 => withWord 1 rest (.callCcNn (Cond.ofCode (fieldY op)))
  | 5 =>
    if fieldQ op then
      match (fieldP op).toNat with
      | 0 => withWord 1 rest .callNn
      | 1 => .ok (.prefixDd, 1)
      | 2 => .ok (.prefixEd, 1)
      | _ => .ok (.prefixFd, 1)
    else .ok (.pushPair (StackPair.ofCode (fieldP op)), 1)
  | 6 => withByte 1 rest (aluImm (fieldY op))
  | _ => .ok (.rst (fieldY op), 1)

/-- The main table: an opcode byte and the bytes after it (R124). -/
def decodeMain (op : Byte) (rest : List Byte) : Decoded :=
  match fieldX op with
  | 0 => decodeMain0 op rest
  | 1 => .ok (decodeMain1 op, 1)
  | 2 => .ok (decodeMain2 op, 1)
  | _ => decodeMain3 op rest

/-! ### The CB table (R121, Map 2) -/

/-- The CB table: the byte after 0xCB. -/
def decodeCb (op : Byte) : Instr :=
  match fieldX op, Reg8.ofCode (fieldZ op) with
  | 0, some r => rotReg (fieldY op) r
  | 0, none => rotAtHl (fieldY op)
  | 1, some r => .bitR (fieldY op) r
  | 1, none => .bitAtHl (fieldY op)
  | 2, some r => .resR (fieldY op) r
  | 2, none => .resAtHl (fieldY op)
  | _, some r => .setR (fieldY op) r
  | _, none => .setAtHl (fieldY op)

/-! ### The ED table (R122, Map 3) -/

/-- 0x40 to 0x7F of the ED table. -/
def decodeEd1 (op : Byte) (rest : List Byte) : Decoded :=
  match (fieldZ op).toNat with
  | 0 =>
    match Reg8.ofCode (fieldY op) with
    | some r => .ok (.inRC r, 2)
    | none => .ok (.inFC, 2)
  | 1 =>
    match Reg8.ofCode (fieldY op) with
    | some r => .ok (.outCR r, 2)
    | none => .ok (.outC0, 2)
  | 2 =>
    if fieldQ op then .ok (.adcHlPair (Pair.ofCode (fieldP op)), 2)
    else .ok (.sbcHlPair (Pair.ofCode (fieldP op)), 2)
  | 3 =>
    if fieldQ op then withWord 2 rest (.ldPairAtNn (Pair.ofCode (fieldP op)))
    else withWord 2 rest (.ldAtNnPair (Pair.ofCode (fieldP op)))
  | 4 => if fieldY op = 0 then .ok (.neg, 2) else .ok (.negMirror (fieldY op), 2)
  | 5 =>
    match (fieldY op).toNat with
    | 0 => .ok (.retn, 2)
    | 1 => .ok (.reti, 2)
    | _ => .ok (.retnMirror (fieldY op), 2)
  | 6 =>
    match (fieldY op).toNat with
    | 0 => .ok (.im0, 2)
    | 1 => .ok (.im0Mirror4E, 2)
    | 2 => .ok (.im1, 2)
    | 3 => .ok (.im2, 2)
    | 4 => .ok (.im0Mirror66, 2)
    | 5 => .ok (.im0Mirror6E, 2)
    | 6 => .ok (.im1Mirror, 2)
    | _ => .ok (.im2Mirror, 2)
  | _ =>
    match (fieldY op).toNat with
    | 0 => .ok (.ldIA, 2)
    | 1 => .ok (.ldRefreshA, 2)
    | 2 => .ok (.ldAI, 2)
    | 3 => .ok (.ldARefresh, 2)
    | 4 => .ok (.rrd, 2)
    | 5 => .ok (.rld, 2)
    | 6 => .ok (.nopEd77, 2)
    | _ => .ok (.nopEd7F, 2)

/-- The sixteen block opcodes of the ED table, and the undefined row (R565). -/
def decodeEdBlock (op : Byte) : Instr :=
  match op.toNat with
  | 0xA0 => .ldi
  | 0xA1 => .cpi
  | 0xA2 => .ini
  | 0xA3 => .outi
  | 0xA8 => .ldd
  | 0xA9 => .cpd
  | 0xAA => .ind
  | 0xAB => .outd
  | 0xB0 => .ldir
  | 0xB1 => .cpir
  | 0xB2 => .inir
  | 0xB3 => .otir
  | 0xB8 => .lddr
  | 0xB9 => .cpdr
  | 0xBA => .indr
  | 0xBB => .otdr
  | _ => .nopEdUndefined op

/-- The ED table: the byte after 0xED and the bytes after it. -/
def decodeEd (op : Byte) (rest : List Byte) : Decoded :=
  if fieldX op = 1 then decodeEd1 op rest else .ok (decodeEdBlock op, 2)

/-! ### The index tables (R120, R123, Maps 4 and 5) -/

/-- The indexed CB table: displacement and fourth byte of `DD CB d op` (R123). -/
def decodeIndexCb (x : Idx) (d op : Byte) : Instr :=
  match fieldX op, Reg8.ofCode (fieldZ op) with
  | 0, some r => rotAtIdxReg (fieldY op) x d r
  | 0, none => rotAtIdx (fieldY op) x d
  | 1, some r => .bitAtIdxMirror x (fieldY op) d r
  | 1, none => .bitAtIdx x (fieldY op) d
  | 2, some r => .resAtIdxR x (fieldY op) d r
  | 2, none => .resAtIdx x (fieldY op) d
  | _, some r => .setAtIdxR x (fieldY op) d r
  | _, none => .setAtIdx x (fieldY op) d

/-- The index half of a register code: 4 is the high half, 5 the low half (R551). -/
def Half.ofCode (k : BitVec 3) : Option Half :=
  match k.toNat with
  | 4 => some .high
  | 5 => some .low
  | _ => none

/-- x = 0 of the index table, or the row of an index prefix without effect (R566). -/
def decodeIndex0 (x : Idx) (op : Byte) (rest : List Byte) : Decoded :=
  let none' : Decoded := .ok (.indexPrefixNoEffect x op, 2)
  match (fieldZ op).toNat with
  | 1 =>
    if fieldQ op then .ok (.addIdxPair x (IdxPair.ofCode (fieldP op)), 2)
    else if fieldP op = 2 then withWord 2 rest (.ldIdxNn x) else none'
  | 2 =>
    match (fieldY op).toNat with
    | 4 => withWord 2 rest (.ldAtNnIdx x)
    | 5 => withWord 2 rest (.ldIdxAtNn x)
    | _ => none'
  | 3 =>
    match (fieldY op).toNat with
    | 4 => .ok (.incIdx x, 2)
    | 5 => .ok (.decIdx x, 2)
    | _ => none'
  | 4 =>
    match (fieldY op).toNat with
    | 4 => .ok (.incHalf x .high, 2)
    | 5 => .ok (.incHalf x .low, 2)
    | 6 => withByte 2 rest (.incAtIdx x)
    | _ => none'
  | 5 =>
    match (fieldY op).toNat with
    | 4 => .ok (.decHalf x .high, 2)
    | 5 => .ok (.decHalf x .low, 2)
    | 6 => withByte 2 rest (.decAtIdx x)
    | _ => none'
  | 6 =>
    match (fieldY op).toNat with
    | 4 => withByte 2 rest (.ldHalfN x .high)
    | 5 => withByte 2 rest (.ldHalfN x .low)
    | 6 => withTwoBytes 2 rest (.ldAtIdxN x)
    | _ => none'
  | _ => none'

/-- x = 1 of the index table: loads of `(IX+d)` and of the index halves (R204, R206, R551). -/
def decodeIndex1 (x : Idx) (op : Byte) (rest : List Byte) : Decoded :=
  match Reg8.ofCode (fieldY op), Reg8.ofCode (fieldZ op) with
  | none, none => .ok (.indexPrefixNoEffect x op, 2)
  | some r, none => withByte 2 rest (.ldRAtIdx x r)
  | none, some r => withByte 2 rest (.ldAtIdxR x r)
  | some r, some r2 =>
    match Half.ofCode (fieldY op), Half.ofCode (fieldZ op) with
    | _, some hf => .ok (.ldRHalf x r hf, 2)
    | some hf, none => .ok (.ldHalfR x hf r2, 2)
    | none, none => .ok (.indexPrefixNoEffect x op, 2)

/-- x = 2 of the index table: accumulator operations. -/
def decodeIndex2 (x : Idx) (op : Byte) (rest : List Byte) : Decoded :=
  match (fieldZ op).toNat with
  | 4 => .ok (aluHalf (fieldY op) x .high, 2)
  | 5 => .ok (aluHalf (fieldY op) x .low, 2)
  | 6 => withByte 2 rest (aluAtIdx (fieldY op) x)
  | _ => .ok (.indexPrefixNoEffect x op, 2)

/-- x = 3 of the index table: stack, jump and exchange forms. -/
def decodeIndex3 (x : Idx) (op : Byte) : Instr :=
  match op.toNat with
  | 0xE1 => .popIdx x
  | 0xE3 => .exAtSpIdx x
  | 0xE5 => .pushIdx x
  | 0xE9 => .jpIdx x
  | 0xF9 => .ldSpIdx x
  | _ => .indexPrefixNoEffect x op

/-- The row of an index-prefix byte that another index prefix follows, or that ends the bytes: 0xDD or 0xFD (R120, R567). -/
def prefixRow : Idx → Instr
  | .ix => .prefixDd
  | .iy => .prefixFd

/-- The bytes after an index-prefix byte: the next opcode byte `op` and the bytes after it (R112, R120, R567). -/
def decodeIndex (x : Idx) (op : Byte) (rest : List Byte) : Decoded :=
  if isIndexPrefix op then .ok (prefixRow x, 1)
  else if op = 0xCB then
    match rest with
    | [] => .ok (.prefixIdxCb x, 2)
    | [_] => .error .truncated
    | d :: op4 :: _ => .ok (decodeIndexCb x d op4, 4)
  else
    match fieldX op with
    | 0 => decodeIndex0 x op rest
    | 1 => decodeIndex1 x op rest
    | 2 => decodeIndex2 x op rest
    | _ => .ok (decodeIndex3 x op, 2)

/-- The decoder: the instruction the bytes begin with, and its length (R112). A list that ends right after a prefix byte is the
prefix's own row; a list that ends inside an instruction is rejected by name; nothing else is rejected (R125). -/
def decode : List Byte → Decoded
  | [] => .error .noBytes
  | [op] => decodeMain op []
  | op :: op2 :: rest =>
    if op = 0xCB then .ok (decodeCb op2, 2)
    else if op = 0xED then decodeEd op2 rest
    else if op = 0xDD then decodeIndex .ix op2 rest
    else if op = 0xFD then decodeIndex .iy op2 rest
    else decodeMain op (op2 :: rest)

/-! ### The encoder -/

/-- The 3-bit code of a register (R113). -/
def Reg8.code : Reg8 → BitVec 3
  | .b => 0
  | .c => 1
  | .d => 2
  | .e => 3
  | .h => 4
  | .l => 5
  | .a => 7

/-- The 2-bit code of a pair (R114). -/
def Pair.code : Pair → BitVec 2
  | .bc => 0
  | .de => 1
  | .hl => 2
  | .sp => 3

/-- The 2-bit code of a stack pair (R114). -/
def StackPair.code : StackPair → BitVec 2
  | .bc => 0
  | .de => 1
  | .hl => 2
  | .af => 3

/-- The 2-bit code of the pair added to an index register (R343). -/
def IdxPair.code : IdxPair → BitVec 2
  | .bc => 0
  | .de => 1
  | .own => 2
  | .sp => 3

/-- The 3-bit code of a condition (R115). -/
def Cond.code : Cond → BitVec 3
  | .nz => 0
  | .z => 1
  | .nc => 2
  | .c => 3
  | .po => 4
  | .pe => 5
  | .p => 6
  | .m => 7

/-- The bit that names an index half (R551 to R554). -/
def Half.code : Half → BitVec 1
  | .high => 0
  | .low => 1

/-- The index-prefix byte, pattern `11i11101` (R111). -/
def indexByte : Idx → Byte
  | .ix => 0xDD
  | .iy => 0xFD

/-- The operand code `v` placed with its bit 0 at bit `at0` of an opcode byte. -/
def putField {n : Nat} (at0 : Nat) (v : BitVec n) : Byte := v.setWidth 8 <<< at0

/-- The bytes of an instruction, first byte first: the `encoding` column of spec/opcode_table.json (R130). -/
def encode : Instr → List Byte
  | .nop => [0x00]
  | .ldPairNn p nn => [0x01 ||| putField 4 p.code, loByte nn, hiByte nn]
  | .ldAtBcA => [0x02]
  | .incPair p => [0x03 ||| putField 4 p.code]
  | .incR r => [0x04 ||| putField 3 r.code]
  | .decR r => [0x05 ||| putField 3 r.code]
  | .ldRN r n => [0x06 ||| putField 3 r.code, n]
  | .rlca => [0x07]
  | .exAfAf => [0x08]
  | .addHlPair p => [0x09 ||| putField 4 p.code]
  | .ldAAtBc => [0x0A]
  | .decPair p => [0x0B ||| putField 4 p.code]
  | .rrca => [0x0F]
  | .djnz e => [0x10, e]
  | .ldAtDeA => [0x12]
  | .rla => [0x17]
  | .jr e => [0x18, e]
  | .ldAAtDe => [0x1A]
  | .rra => [0x1F]
  | .jrNz e => [0x20, e]
  | .ldAtNnHl nn => [0x22, loByte nn, hiByte nn]
  | .daa => [0x27]
  | .jrZ e => [0x28, e]
  | .ldHlAtNn nn => [0x2A, loByte nn, hiByte nn]
  | .cpl => [0x2F]
  | .jrNc e => [0x30, e]
  | .ldAtNnA nn => [0x32, loByte nn, hiByte nn]
  | .incAtHl => [0x34]
  | .decAtHl => [0x35]
  | .ldAtHlN n => [0x36, n]
  | .scf => [0x37]
  | .jrC e => [0x38, e]
  | .ldAAtNn nn => [0x3A, loByte nn, hiByte nn]
  | .ccf => [0x3F]
  | .ldRR r r2 => [0x40 ||| putField 3 r.code ||| putField 0 r2.code]
  | .ldRAtHl r => [0x46 ||| putField 3 r.code]
  | .ldAtHlR r => [0x70 ||| putField 0 r.code]
  | .halt => [0x76]
  | .addAR r => [0x80 ||| putField 0 r.code]
  | .addAAtHl => [0x86]
  | .addAN n => [0xC6, n]
  | .adcAR r => [0x88 ||| putField 0 r.code]
  | .adcAAtHl => [0x8E]
  | .adcAN n => [0xCE, n]
  | .subR r => [0x90 ||| putField 0 r.code]
  | .subAtHl => [0x96]
  | .subN n => [0xD6, n]
  | .sbcAR r => [0x98 ||| putField 0 r.code]
  | .sbcAAtHl => [0x9E]
  | .sbcAN n => [0xDE, n]
  | .andR r => [0xA0 ||| putField 0 r.code]
  | .andAtHl => [0xA6]
  | .andN n => [0xE6, n]
  | .xorR r => [0xA8 ||| putField 0 r.code]
  | .xorAtHl => [0xAE]
  | .xorN n => [0xEE, n]
  | .orR r => [0xB0 ||| putField 0 r.code]
  | .orAtHl => [0xB6]
  | .orN n => [0xF6, n]
  | .cpR r => [0xB8 ||| putField 0 r.code]
  | .cpAtHl => [0xBE]
  | .cpN n => [0xFE, n]
  | .retCc cc => [0xC0 ||| putField 3 cc.code]
  | .popPair q => [0xC1 ||| putField 4 q.code]
  | .jpCcNn cc nn => [0xC2 ||| putField 3 cc.code, loByte nn, hiByte nn]
  | .jpNn nn => [0xC3, loByte nn, hiByte nn]
  | .outNA n => [0xD3, n]
  | .exAtSpHl => [0xE3]
  | .di => [0xF3]
  | .callCcNn cc nn => [0xC4 ||| putField 3 cc.code, loByte nn, hiByte nn]
  | .pushPair q => [0xC5 ||| putField 4 q.code]
  | .rst t => [0xC7 ||| putField 3 t]
  | .ret => [0xC9]
  | .exx => [0xD9]
  | .jpHl => [0xE9]
  | .ldSpHl => [0xF9]
  | .prefixCb => [0xCB]
  | .inAN n => [0xDB, n]
  | .exDeHl => [0xEB]
  | .ei => [0xFB]
  | .callNn nn => [0xCD, loByte nn, hiByte nn]
  | .prefixDd => [0xDD]
  | .prefixEd => [0xED]
  | .prefixFd => [0xFD]
  | .rlcR r => [0xCB, 0x00 ||| putField 0 r.code]
  | .rlcAtHl => [0xCB, 0x06]
  | .rrcR r => [0xCB, 0x08 ||| putField 0 r.code]
  | .rrcAtHl => [0xCB, 0x0E]
  | .rlR r => [0xCB, 0x10 ||| putField 0 r.code]
  | .rlAtHl => [0xCB, 0x16]
  | .rrR r => [0xCB, 0x18 ||| putField 0 r.code]
  | .rrAtHl => [0xCB, 0x1E]
  | .slaR r => [0xCB, 0x20 ||| putField 0 r.code]
  | .slaAtHl => [0xCB, 0x26]
  | .sraR r => [0xCB, 0x28 ||| putField 0 r.code]
  | .sraAtHl => [0xCB, 0x2E]
  | .sllR r => [0xCB, 0x30 ||| putField 0 r.code]
  | .sllAtHl => [0xCB, 0x36]
  | .srlR r => [0xCB, 0x38 ||| putField 0 r.code]
  | .srlAtHl => [0xCB, 0x3E]
  | .bitR b r => [0xCB, 0x40 ||| putField 3 b ||| putField 0 r.code]
  | .bitAtHl b => [0xCB, 0x46 ||| putField 3 b]
  | .resR b r => [0xCB, 0x80 ||| putField 3 b ||| putField 0 r.code]
  | .resAtHl b => [0xCB, 0x86 ||| putField 3 b]
  | .setR b r => [0xCB, 0xC0 ||| putField 3 b ||| putField 0 r.code]
  | .setAtHl b => [0xCB, 0xC6 ||| putField 3 b]
  | .inRC r => [0xED, 0x40 ||| putField 3 r.code]
  | .inFC => [0xED, 0x70]
  | .outCR r => [0xED, 0x41 ||| putField 3 r.code]
  | .outC0 => [0xED, 0x71]
  | .sbcHlPair p => [0xED, 0x42 ||| putField 4 p.code]
  | .adcHlPair p => [0xED, 0x4A ||| putField 4 p.code]
  | .ldAtNnPair p nn => [0xED, 0x43 ||| putField 4 p.code, loByte nn, hiByte nn]
  | .ldPairAtNn p nn => [0xED, 0x4B ||| putField 4 p.code, loByte nn, hiByte nn]
  | .neg => [0xED, 0x44]
  | .negMirror v => [0xED, 0x44 ||| putField 3 v]
  | .retn => [0xED, 0x45]
  | .reti => [0xED, 0x4D]
  | .retnMirror v => [0xED, 0x45 ||| putField 3 v]
  | .im0 => [0xED, 0x46]
  | .im1 => [0xED, 0x56]
  | .im2 => [0xED, 0x5E]
  | .im0Mirror4E => [0xED, 0x4E]
  | .im0Mirror66 => [0xED, 0x66]
  | .im0Mirror6E => [0xED, 0x6E]
  | .im1Mirror => [0xED, 0x76]
  | .im2Mirror => [0xED, 0x7E]
  | .ldIA => [0xED, 0x47]
  | .ldRefreshA => [0xED, 0x4F]
  | .ldAI => [0xED, 0x57]
  | .ldARefresh => [0xED, 0x5F]
  | .rrd => [0xED, 0x67]
  | .rld => [0xED, 0x6F]
  | .nopEd77 => [0xED, 0x77]
  | .nopEd7F => [0xED, 0x7F]
  | .ldi => [0xED, 0xA0]
  | .cpi => [0xED, 0xA1]
  | .ini => [0xED, 0xA2]
  | .outi => [0xED, 0xA3]
  | .ldd => [0xED, 0xA8]
  | .cpd => [0xED, 0xA9]
  | .ind => [0xED, 0xAA]
  | .outd => [0xED, 0xAB]
  | .ldir => [0xED, 0xB0]
  | .cpir => [0xED, 0xB1]
  | .inir => [0xED, 0xB2]
  | .otir => [0xED, 0xB3]
  | .lddr => [0xED, 0xB8]
  | .cpdr => [0xED, 0xB9]
  | .indr => [0xED, 0xBA]
  | .otdr => [0xED, 0xBB]
  | .nopEdUndefined w => [0xED, w]
  | .ldIdxNn x nn => [indexByte x, 0x21, loByte nn, hiByte nn]
  | .addIdxPair x p => [indexByte x, 0x09 ||| putField 4 p.code]
  | .ldAtNnIdx x nn => [indexByte x, 0x22, loByte nn, hiByte nn]
  | .incIdx x => [indexByte x, 0x23]
  | .incHalf x hf => [indexByte x, 0x24 ||| putField 3 hf.code]
  | .decHalf x hf => [indexByte x, 0x25 ||| putField 3 hf.code]
  | .ldHalfN x hf n => [indexByte x, 0x26 ||| putField 3 hf.code, n]
  | .ldIdxAtNn x nn => [indexByte x, 0x2A, loByte nn, hiByte nn]
  | .decIdx x => [indexByte x, 0x2B]
  | .incAtIdx x d => [indexByte x, 0x34, d]
  | .decAtIdx x d => [indexByte x, 0x35, d]
  | .ldAtIdxN x d n => [indexByte x, 0x36, d, n]
  | .ldRAtIdx x r d => [indexByte x, 0x46 ||| putField 3 r.code, d]
  | .ldAtIdxR x r d => [indexByte x, 0x70 ||| putField 0 r.code, d]
  | .ldRHalf x r hf => [indexByte x, 0x44 ||| putField 3 r.code ||| putField 0 hf.code]
  | .ldHalfR x hf r => [indexByte x, 0x60 ||| putField 3 hf.code ||| putField 0 r.code]
  | .addAHalf x hf => [indexByte x, 0x84 ||| putField 0 hf.code]
  | .addAAtIdx x d => [indexByte x, 0x86, d]
  | .adcAHalf x hf => [indexByte x, 0x8C ||| putField 0 hf.code]
  | .adcAAtIdx x d => [indexByte x, 0x8E, d]
  | .subHalf x hf => [indexByte x, 0x94 ||| putField 0 hf.code]
  | .subAtIdx x d => [indexByte x, 0x96, d]
  | .sbcAHalf x hf => [indexByte x, 0x9C ||| putField 0 hf.code]
  | .sbcAAtIdx x d => [indexByte x, 0x9E, d]
  | .andHalf x hf => [indexByte x, 0xA4 ||| putField 0 hf.code]
  | .andAtIdx x d => [indexByte x, 0xA6, d]
  | .xorHalf x hf => [indexByte x, 0xAC ||| putField 0 hf.code]
  | .xorAtIdx x d => [indexByte x, 0xAE, d]
  | .orHalf x hf => [indexByte x, 0xB4 ||| putField 0 hf.code]
  | .orAtIdx x d => [indexByte x, 0xB6, d]
  | .cpHalf x hf => [indexByte x, 0xBC ||| putField 0 hf.code]
  | .cpAtIdx x d => [indexByte x, 0xBE, d]
  | .popIdx x => [indexByte x, 0xE1]
  | .exAtSpIdx x => [indexByte x, 0xE3]
  | .pushIdx x => [indexByte x, 0xE5]
  | .jpIdx x => [indexByte x, 0xE9]
  | .ldSpIdx x => [indexByte x, 0xF9]
  | .prefixIdxCb x => [indexByte x, 0xCB]
  | .indexPrefixNoEffect x w => [indexByte x, w]
  | .rlcAtIdx x d => [indexByte x, 0xCB, d, 0x06]
  | .rlcAtIdxR x d r => [indexByte x, 0xCB, d, 0x00 ||| putField 0 r.code]
  | .rrcAtIdx x d => [indexByte x, 0xCB, d, 0x0E]
  | .rrcAtIdxR x d r => [indexByte x, 0xCB, d, 0x08 ||| putField 0 r.code]
  | .rlAtIdx x d => [indexByte x, 0xCB, d, 0x16]
  | .rlAtIdxR x d r => [indexByte x, 0xCB, d, 0x10 ||| putField 0 r.code]
  | .rrAtIdx x d => [indexByte x, 0xCB, d, 0x1E]
  | .rrAtIdxR x d r => [indexByte x, 0xCB, d, 0x18 ||| putField 0 r.code]
  | .slaAtIdx x d => [indexByte x, 0xCB, d, 0x26]
  | .slaAtIdxR x d r => [indexByte x, 0xCB, d, 0x20 ||| putField 0 r.code]
  | .sraAtIdx x d => [indexByte x, 0xCB, d, 0x2E]
  | .sraAtIdxR x d r => [indexByte x, 0xCB, d, 0x28 ||| putField 0 r.code]
  | .sllAtIdx x d => [indexByte x, 0xCB, d, 0x36]
  | .sllAtIdxR x d r => [indexByte x, 0xCB, d, 0x30 ||| putField 0 r.code]
  | .srlAtIdx x d => [indexByte x, 0xCB, d, 0x3E]
  | .srlAtIdxR x d r => [indexByte x, 0xCB, d, 0x38 ||| putField 0 r.code]
  | .bitAtIdx x b d => [indexByte x, 0xCB, d, 0x46 ||| putField 3 b]
  | .bitAtIdxMirror x b d r => [indexByte x, 0xCB, d, 0x40 ||| putField 3 b ||| putField 0 r.code]
  | .resAtIdx x b d => [indexByte x, 0xCB, d, 0x86 ||| putField 3 b]
  | .resAtIdxR x b d r => [indexByte x, 0xCB, d, 0x80 ||| putField 3 b ||| putField 0 r.code]
  | .setAtIdx x b d => [indexByte x, 0xCB, d, 0xC6 ||| putField 3 b]
  | .setAtIdxR x b d r => [indexByte x, 0xCB, d, 0xC0 ||| putField 3 b ||| putField 0 r.code]

/-! ### Table words -/

/-- The `k`-th byte of a word of `nbits` bits whose FIRST byte is its most significant one, as R130 numbers the table's words
(`match` and `mask` are one big-endian number, byte 0 in the most significant position). -/
def wordByteBig (nbits w k : Nat) : Byte := BitVec.ofNat 8 (w >>> (nbits - 8 * (k + 1)))

/-- The `k`-th byte of a word whose FIRST byte is its least significant one. -/
def wordByteLittle (w k : Nat) : Byte := BitVec.ofNat 8 (w >>> (8 * k))

/-- Do these bytes decode to an instruction of just so many bytes? -/
def decodesWhole (bs : List Byte) : Bool :=
  match decode bs with
  | .ok (_, len) => len == bs.length
  | .error _ => false

/-- The bytes of an instruction whose bits are `w`, in the order they lie in memory. The table numbers a word with byte 0 most
significant (R130), so that reading comes first; where it is no whole instruction of `nbits` bits, the other numbering (first
byte least significant) is read. -/
def tableWordBytes (nbits w : Nat) : List Byte :=
  let big := (List.range (nbits / 8)).map (wordByteBig nbits w)
  let little := (List.range (nbits / 8)).map (wordByteLittle w)
  if decodesWhole big then big else if decodesWhole little then little else big

/-- The instruction the decoder reads from a table word of `nbits` bits; bytes the instruction has beyond them are zero. -/
def decodeTableWord (nbits w : Nat) : Option Instr :=
  let bs := tableWordBytes nbits w
  match decode bs with
  | .ok (i, _) => some i
  | .error _ =>
    match decode (bs ++ [0, 0, 0]) with
    | .ok (i, _) => some i
    | .error _ => none

end Sys2Proof
end

