-- ==== Sys2Proof/Machine/Operands.lean ====
section
/-! DEFINITION. The operand forms: the indexed address (R117), the relative target (R118), the conditions (R115), the registers
of R551, and the port addresses (R501). -/

namespace Sys2Proof.Machine

/-- `EA = (IX + sext_8(d)) mod 65536`, or the same of `IY` (R117, R200). -/
def Cpu.idxAddr (c : Cpu) (x : Idx) (d : Byte) : Word := c.idx x + signExtend8 d

/-- The target of a relative jump, `(PC + sext_8(e)) mod 65536` with `PC` past the instruction (R118). -/
def Cpu.relTarget (c : Cpu) (e : Byte) : Word := c.pc + signExtend8 e

/-- The truth of a condition (R115). -/
def Cpu.holds (c : Cpu) : Cond → Bool
  | .nz => !c.f.getLsbD 6
  | .z => c.f.getLsbD 6
  | .nc => !c.f.getLsbD 0
  | .c => c.f.getLsbD 0
  | .po => !c.f.getLsbD 2
  | .pe => c.f.getLsbD 2
  | .p => !c.f.getLsbD 7
  | .m => c.f.getLsbD 7

/-- `y[i]` of R551 read: `x[i]`, but for `H` and `L`, which name the halves of the prefixed index register. -/
def Cpu.yReg (c : Cpu) (x : Idx) : Reg8 → Byte
  | .h => c.half x .high
  | .l => c.half x .low
  | .b => c.b
  | .c => c.c
  | .d => c.d
  | .e => c.e
  | .a => c.a

/-- `y[i] <- v` of R551. -/
def Cpu.setYReg (c : Cpu) (x : Idx) (r : Reg8) (v : Byte) : Cpu :=
  match r with
  | .h => c.setHalf x .high v
  | .l => c.setHalf x .low v
  | .b => { c with b := v }
  | .c => { c with c := v }
  | .d => { c with d := v }
  | .e => { c with e := v }
  | .a => { c with a := v }

/-- The port of `IN A,(n)` and `OUT (n),A`: `A ++ n` (R501). -/
def Cpu.portAN (c : Cpu) (n : Byte) : Word := joinBytes c.a n

/-- The port of the `(C)` forms: `BC` (R501). -/
def Cpu.portC (c : Cpu) : Word := c.bc

/-- The restart target `t * 8` (R467). -/
def restartTarget (t : BitVec 3) : Word := t.setWidth 16 <<< 3

/-- The mask `1 << b` of a bit number (R420, R423, R424). -/
def bitMask (b : BitVec 3) : Byte := (1 : Byte) <<< b.toNat

end Sys2Proof.Machine
end

