-- ==== Sys2Proof/Machine/Flags.lean ====
section
/-! DEFINITION. Every flag computation of the spec, as functions of bytes and words: the helpers of R33 to R37, the 16-bit
formulas of R340 to R342, `DAA` (R320), the rotates and shifts (R401 to R411, R555), the bit test (R420 to R422) and the
block flags (R244, R248, R512). `F` is laid out as in R32: `S Z Y H X P/V N C` from bit 7. -/

namespace Sys2Proof.Machine

/-! ### Helpers (R33) -/

/-- `SZ(v)` (R33). -/
def flagsSZ (v : Byte) : Byte := (v &&& 0x80) ||| bitIf (v == 0) 0x40

/-- `XY(v)` (R33). -/
def flagsXY (v : Byte) : Byte := v &&& 0x28

/-- `SZXY(v)` (R33). -/
def flagsSZXY (v : Byte) : Byte := flagsSZ v ||| flagsXY v

/-- Has `v` an even number of one bits (R33)? -/
def evenParity (v : Byte) : Bool :=
  !(v.getLsbD 0 ^^ v.getLsbD 1 ^^ v.getLsbD 2 ^^ v.getLsbD 3 ^^ v.getLsbD 4 ^^ v.getLsbD 5 ^^ v.getLsbD 6 ^^ v.getLsbD 7)

/-- `PAR(v)` (R33). -/
def flagsPar (v : Byte) : Byte := bitIf (evenParity v) 0x04

/-- `SZXYP(v)` (R33). -/
def flagsSZXYP (v : Byte) : Byte := flagsSZXY v ||| flagsPar v

/-! ### 8-bit addition and subtraction (R34, R35) -/

/-- `ADD8(a, b, cin)` (R34). -/
def add8 (a b : Byte) (cin : Bool) : Byte × Byte :=
  let sum := a.toNat + b.toNat + cin.toNat
  let res := BitVec.ofNat 8 sum
  let h := bitIf (decide ((a &&& 0x0F).toNat + (b &&& 0x0F).toNat + cin.toNat > 0x0F)) 0x10
  let v := bitIf (((a ^^^ b ^^^ 0x80) &&& (a ^^^ res) &&& 0x80) != 0) 0x04
  let c := bitIf (decide (sum > 0xFF)) 0x01
  (res, flagsSZXY res ||| h ||| v ||| c)

/-- `SUB8(a, b, cin)` (R35). -/
def sub8 (a b : Byte) (cin : Bool) : Byte × Byte :=
  let diff : Int := (a.toNat : Int) - b.toNat - cin.toNat
  let res := BitVec.ofInt 8 diff
  let h := bitIf (decide (((a &&& 0x0F).toNat : Int) - (b &&& 0x0F).toNat - cin.toNat < 0)) 0x10
  let v := bitIf (((a ^^^ b) &&& (a ^^^ res) &&& 0x80) != 0) 0x04
  let c := bitIf (decide (diff < 0)) 0x01
  (res, flagsSZXY res ||| h ||| v ||| 0x02 ||| c)

/-! ### Logic, increment, decrement (R36, R37) -/

/-- `LOGIC(res, is_and)` (R36). -/
def flagsLogic (res : Byte) (isAnd : Bool) : Byte := flagsSZXYP res ||| bitIf isAnd 0x10

/-- `INC8(v)` with the flags `f` before it (R37). -/
def inc8 (f v : Byte) : Byte × Byte :=
  let res := v + 1
  (res, flagsSZXY res ||| bitIf ((v &&& 0x0F) == 0x0F) 0x10 ||| bitIf (v == 0x7F) 0x04 ||| (f &&& 0x01))

/-- `DEC8(v)` with the flags `f` before it (R37). -/
def dec8 (f v : Byte) : Byte × Byte :=
  let res := v - 1
  (res, flagsSZXY res ||| bitIf ((v &&& 0x0F) == 0x00) 0x10 ||| bitIf (v == 0x80) 0x04 ||| 0x02 ||| (f &&& 0x01))

/-- The flags of `CP v`: those of `SUB8` with `X` and `Y` from the operand (R308). -/
def flagsCp (a v : Byte) : Byte := ((sub8 a v false).2 &&& 0xD7) ||| (v &&& 0x28)

/-! ### Decimal adjust (R320) -/

/-- `DAA` of the accumulator `a` and the flags `f` (R320). -/
def daaOf (a f : Byte) : Byte × Byte :=
  let low := f.getLsbD 4 || decide ((a &&& 0x0F).toNat > 9)
  let high := f.getLsbD 0 || decide (a.toNat > 0x99)
  let corr := bitIf low 0x06 ||| bitIf high 0x60
  let cout := bitIf high 0x01
  let res := if f.getLsbD 1 then a - corr else a + corr
  let h :=
    if f.getLsbD 1 then bitIf (f.getLsbD 4 && decide ((a &&& 0x0F).toNat < 6)) 0x10
    else bitIf (decide ((a &&& 0x0F).toNat > 9)) 0x10
  (res, flagsSZXYP res ||| h ||| (f &&& 0x02) ||| cout)

/-! ### 16-bit arithmetic (R340 to R342) -/

/-- `ADD HL,ss` of `a` and `b` with the flags `f` before it (R340). -/
def add16 (f : Byte) (a b : Word) : Word × Byte :=
  let sum := a.toNat + b.toNat
  let res := BitVec.ofNat 16 sum
  (res, (f &&& 0xC4) ||| bitIf (decide ((a &&& 0x0FFF).toNat + (b &&& 0x0FFF).toNat > 0x0FFF)) 0x10 |||
    bitIf (decide (sum > 0xFFFF)) 0x01 ||| (hiByte res &&& 0x28))

/-- `ADC HL,ss` of `a`, `b` and the carry `c` (R341). -/
def adc16 (a b : Word) (c : Bool) : Word × Byte :=
  let sum := a.toNat + b.toNat + c.toNat
  let res := BitVec.ofNat 16 sum
  (res, bitIf (res.getLsbD 15) 0x80 ||| bitIf (res == 0) 0x40 ||| (hiByte res &&& 0x28) |||
    bitIf (decide ((a &&& 0x0FFF).toNat + (b &&& 0x0FFF).toNat + c.toNat > 0x0FFF)) 0x10 |||
    bitIf (((a ^^^ b ^^^ 0x8000) &&& (a ^^^ res) &&& 0x8000) != 0) 0x04 ||| bitIf (decide (sum > 0xFFFF)) 0x01)

/-- `SBC HL,ss` of `a`, `b` and the borrow `c` (R342). -/
def sbc16 (a b : Word) (c : Bool) : Word × Byte :=
  let diff : Int := (a.toNat : Int) - b.toNat - c.toNat
  let res := BitVec.ofInt 16 diff
  (res, bitIf (res.getLsbD 15) 0x80 ||| bitIf (res == 0) 0x40 ||| (hiByte res &&& 0x28) |||
    bitIf (decide (((a &&& 0x0FFF).toNat : Int) - (b &&& 0x0FFF).toNat - c.toNat < 0)) 0x10 |||
    bitIf (((a ^^^ b) &&& (a ^^^ res) &&& 0x8000) != 0) 0x04 ||| 0x02 ||| bitIf (decide (diff < 0)) 0x01)

/-! ### Rotates and shifts (R400 to R411, R555) -/

/-- The eight operations of the CB table's `x = 0` (R121). -/
inductive RotOp where
  | rlc | rrc | rl | rr | sla | sra | sll | srl
  deriving DecidableEq, Repr

/-- The bit shifted out of `v`: bit 7 to the left, bit 0 to the right (R405 to R411, R555). -/
def rotCarry (op : RotOp) (v : Byte) : Bool :=
  match op with
  | .rlc => v.getLsbD 7
  | .rrc => v.getLsbD 0
  | .rl => v.getLsbD 7
  | .rr => v.getLsbD 0
  | .sla => v.getLsbD 7
  | .sra => v.getLsbD 0
  | .sll => v.getLsbD 7
  | .srl => v.getLsbD 0

/-- The result of a rotate or shift of `v` with the carry `cf` before it (R405 to R411, R555). -/
def rotResult (op : RotOp) (cf : Bool) (v : Byte) : Byte :=
  match op with
  | .rlc => (v <<< 1) ||| bitIf (v.getLsbD 7) 0x01
  | .rrc => (v >>> 1) ||| bitIf (v.getLsbD 0) 0x80
  | .rl => (v <<< 1) ||| bitIf cf 0x01
  | .rr => (v >>> 1) ||| bitIf cf 0x80
  | .sla => v <<< 1
  | .sra => (v >>> 1) ||| (v &&& 0x80)
  | .sll => (v <<< 1) ||| 0x01
  | .srl => v >>> 1

/-- The common flag result of the rotates and shifts, `SZXYP(res) | c` (R400). -/
def rotFlags (op : RotOp) (cf : Bool) (v : Byte) : Byte :=
  flagsSZXYP (rotResult op cf v) ||| bitIf (rotCarry op v) 0x01

/-- The flags of the accumulator rotates: `S`, `Z`, `P/V` unchanged (R401 to R404). -/
def rotAccFlags (op : RotOp) (f v : Byte) : Byte :=
  (f &&& 0xC4) ||| (rotResult op (f.getLsbD 0) v &&& 0x28) ||| bitIf (rotCarry op v) 0x01

/-! ### Bit test, set and reset (R420 to R424) -/

/-- The flags of `BIT b` on the byte `v`, with `X` and `Y` from `xy` (R420 to R422). -/
def flagsBit (f : Byte) (b : BitVec 3) (v xy : Byte) : Byte :=
  (f &&& 0x01) ||| 0x10 ||| bitIf ((v &&& bitMask b) == 0) 0x44 |||
    bitIf (b == 7 && (v &&& bitMask b) != 0) 0x80 ||| (xy &&& 0x28)

/-- `v | (1 << b)` (R423). -/
def setBit (b : BitVec 3) (v : Byte) : Byte := v ||| bitMask b

/-- `v & ~(1 << b)` (R424). -/
def resetBit (b : BitVec 3) (v : Byte) : Byte := v &&& ~~~bitMask b

/-! ### Block instructions (R244, R248, R512) -/

/-- The `X` and `Y` bits of a block transfer or search, from bits 3 and 1 of `n` (R244, R248). -/
def flagsBlockXY (n : Byte) : Byte := (n &&& (0x08 : Byte)) ||| ((n &&& (0x02 : Byte)) <<< 4)

/-- The flags of a block transfer of the byte `t`, with the new `BC` (R244). -/
def flagsLdBlock (f a t : Byte) (bc : Word) : Byte :=
  (f &&& 0xC1) ||| bitIf (bc != 0) 0x04 ||| flagsBlockXY (t + a)

/-- The half borrow of a block search (R248). -/
def cpBlockHalf (a t : Byte) : Bool := decide (((a &&& 0x0F).toNat : Int) - (t &&& 0x0F).toNat < 0)

/-- The flags of a block search of the byte `t`, with the new `BC` (R248). -/
def flagsCpBlock (f a t : Byte) (bc : Word) : Byte :=
  flagsSZ (a - t) ||| bitIf (cpBlockHalf a t) 0x10 ||| bitIf (bc != 0) 0x04 ||| 0x02 ||| (f &&& 0x01) |||
    flagsBlockXY (a - t - bitIf (cpBlockHalf a t) 0x01)

/-- The flags of a block input or output with the new `B` and the free byte `any`: `Z` and `N` are defined (R512, R518). -/
def flagsIoBlock (any b : Byte) : Byte := (any &&& 0xBD) ||| bitIf (b == 0) 0x40 ||| 0x02

end Sys2Proof.Machine
end

