-- ==== Sys2Proof/Machine/Arith.lean ====
section
/-! DEFINITION. The meanings of spec/42_arithmetic.md: 8-bit arithmetic and logic, increment and decrement, decimal adjust,
CPU control and 16-bit arithmetic. -/

namespace Sys2Proof.Machine

/-! ### The accumulator operations on an operand (R301 to R308) -/

/-- `ADD A,v` (R301). -/
def State.aluAdd (s : State) (v : Byte) : State := s.setAF (add8 s.cpu.a v false).1 (add8 s.cpu.a v false).2

/-- `ADC A,v` (R302). -/
def State.aluAdc (s : State) (v : Byte) : State := s.setAF (add8 s.cpu.a v s.cpu.carry).1 (add8 s.cpu.a v s.cpu.carry).2

/-- `SUB v` (R303). -/
def State.aluSub (s : State) (v : Byte) : State := s.setAF (sub8 s.cpu.a v false).1 (sub8 s.cpu.a v false).2

/-- `SBC A,v` (R304). -/
def State.aluSbc (s : State) (v : Byte) : State := s.setAF (sub8 s.cpu.a v s.cpu.carry).1 (sub8 s.cpu.a v s.cpu.carry).2

/-- `AND v` (R305). -/
def State.aluAnd (s : State) (v : Byte) : State := s.setAF (s.cpu.a &&& v) (flagsLogic (s.cpu.a &&& v) true)

/-- `XOR v` (R306). -/
def State.aluXor (s : State) (v : Byte) : State := s.setAF (s.cpu.a ^^^ v) (flagsLogic (s.cpu.a ^^^ v) false)

/-- `OR v` (R307). -/
def State.aluOr (s : State) (v : Byte) : State := s.setAF (s.cpu.a ||| v) (flagsLogic (s.cpu.a ||| v) false)

/-- `CP v` (R308). -/
def State.aluCp (s : State) (v : Byte) : State := s.setF (flagsCp s.cpu.a v)

/-! ### Their operand forms (R300) -/

/-- `ADD A,r` (R301). -/
def execAddAR (r : Reg8) (s : State) : Out := finish 4 (s.aluAdd (s.cpu.reg r))

/-- `ADD A,n` (R301). -/
def execAddAN (n : Byte) (s : State) : Out := finish 7 (s.aluAdd n)

/-- `ADD A,(HL)` (R301). -/
def execAddAAtHl (s : State) : Out := finish 7 (s.aluAdd (s.memRead s.cpu.hl))

/-- `ADD A,(IX|IY+d)` (R301). -/
def execAddAAtIdx (x : Idx) (d : Byte) (s : State) : Out := finish 19 (s.aluAdd (s.memRead (s.cpu.idxAddr x d)))

/-- `ADC A,r` (R302). -/
def execAdcAR (r : Reg8) (s : State) : Out := finish 4 (s.aluAdc (s.cpu.reg r))

/-- `ADC A,n` (R302). -/
def execAdcAN (n : Byte) (s : State) : Out := finish 7 (s.aluAdc n)

/-- `ADC A,(HL)` (R302). -/
def execAdcAAtHl (s : State) : Out := finish 7 (s.aluAdc (s.memRead s.cpu.hl))

/-- `ADC A,(IX|IY+d)` (R302). -/
def execAdcAAtIdx (x : Idx) (d : Byte) (s : State) : Out := finish 19 (s.aluAdc (s.memRead (s.cpu.idxAddr x d)))

/-- `SUB r` (R303). -/
def execSubR (r : Reg8) (s : State) : Out := finish 4 (s.aluSub (s.cpu.reg r))

/-- `SUB n` (R303). -/
def execSubN (n : Byte) (s : State) : Out := finish 7 (s.aluSub n)

/-- `SUB (HL)` (R303). -/
def execSubAtHl (s : State) : Out := finish 7 (s.aluSub (s.memRead s.cpu.hl))

/-- `SUB (IX|IY+d)` (R303). -/
def execSubAtIdx (x : Idx) (d : Byte) (s : State) : Out := finish 19 (s.aluSub (s.memRead (s.cpu.idxAddr x d)))

/-- `SBC A,r` (R304). -/
def execSbcAR (r : Reg8) (s : State) : Out := finish 4 (s.aluSbc (s.cpu.reg r))

/-- `SBC A,n` (R304). -/
def execSbcAN (n : Byte) (s : State) : Out := finish 7 (s.aluSbc n)

/-- `SBC A,(HL)` (R304). -/
def execSbcAAtHl (s : State) : Out := finish 7 (s.aluSbc (s.memRead s.cpu.hl))

/-- `SBC A,(IX|IY+d)` (R304). -/
def execSbcAAtIdx (x : Idx) (d : Byte) (s : State) : Out := finish 19 (s.aluSbc (s.memRead (s.cpu.idxAddr x d)))

/-- `AND r` (R305). -/
def execAndR (r : Reg8) (s : State) : Out := finish 4 (s.aluAnd (s.cpu.reg r))

/-- `AND n` (R305). -/
def execAndN (n : Byte) (s : State) : Out := finish 7 (s.aluAnd n)

/-- `AND (HL)` (R305). -/
def execAndAtHl (s : State) : Out := finish 7 (s.aluAnd (s.memRead s.cpu.hl))

/-- `AND (IX|IY+d)` (R305). -/
def execAndAtIdx (x : Idx) (d : Byte) (s : State) : Out := finish 19 (s.aluAnd (s.memRead (s.cpu.idxAddr x d)))

/-- `XOR r` (R306). -/
def execXorR (r : Reg8) (s : State) : Out := finish 4 (s.aluXor (s.cpu.reg r))

/-- `XOR n` (R306). -/
def execXorN (n : Byte) (s : State) : Out := finish 7 (s.aluXor n)

/-- `XOR (HL)` (R306). -/
def execXorAtHl (s : State) : Out := finish 7 (s.aluXor (s.memRead s.cpu.hl))

/-- `XOR (IX|IY+d)` (R306). -/
def execXorAtIdx (x : Idx) (d : Byte) (s : State) : Out := finish 19 (s.aluXor (s.memRead (s.cpu.idxAddr x d)))

/-- `OR r` (R307). -/
def execOrR (r : Reg8) (s : State) : Out := finish 4 (s.aluOr (s.cpu.reg r))

/-- `OR n` (R307). -/
def execOrN (n : Byte) (s : State) : Out := finish 7 (s.aluOr n)

/-- `OR (HL)` (R307). -/
def execOrAtHl (s : State) : Out := finish 7 (s.aluOr (s.memRead s.cpu.hl))

/-- `OR (IX|IY+d)` (R307). -/
def execOrAtIdx (x : Idx) (d : Byte) (s : State) : Out := finish 19 (s.aluOr (s.memRead (s.cpu.idxAddr x d)))

/-- `CP r` (R308). -/
def execCpR (r : Reg8) (s : State) : Out := finish 4 (s.aluCp (s.cpu.reg r))

/-- `CP n` (R308). -/
def execCpN (n : Byte) (s : State) : Out := finish 7 (s.aluCp n)

/-- `CP (HL)` (R308). -/
def execCpAtHl (s : State) : Out := finish 7 (s.aluCp (s.memRead s.cpu.hl))

/-- `CP (IX|IY+d)` (R308). -/
def execCpAtIdx (x : Idx) (d : Byte) (s : State) : Out := finish 19 (s.aluCp (s.memRead (s.cpu.idxAddr x d)))

/-! ### Increment and decrement (R310 to R315) -/

/-- `INC` of a memory byte (R311, R312). -/
def State.incAt (s : State) (a : Word) : State :=
  (s.memWrite a (inc8 s.cpu.f (s.memRead a)).1).setF (inc8 s.cpu.f (s.memRead a)).2

/-- `DEC` of a memory byte (R314, R315). -/
def State.decAt (s : State) (a : Word) : State :=
  (s.memWrite a (dec8 s.cpu.f (s.memRead a)).1).setF (dec8 s.cpu.f (s.memRead a)).2

/-- `INC r` (R310). -/
def execIncR (r : Reg8) (s : State) : Out :=
  finish 4 ((s.setReg r (inc8 s.cpu.f (s.cpu.reg r)).1).setF (inc8 s.cpu.f (s.cpu.reg r)).2)

/-- `INC (HL)` (R311). -/
def execIncAtHl (s : State) : Out := finish 11 (s.incAt s.cpu.hl)

/-- `INC (IX|IY+d)` (R312). -/
def execIncAtIdx (x : Idx) (d : Byte) (s : State) : Out := finish 23 (s.incAt (s.cpu.idxAddr x d))

/-- `DEC r` (R313). -/
def execDecR (r : Reg8) (s : State) : Out :=
  finish 4 ((s.setReg r (dec8 s.cpu.f (s.cpu.reg r)).1).setF (dec8 s.cpu.f (s.cpu.reg r)).2)

/-- `DEC (HL)` (R314). -/
def execDecAtHl (s : State) : Out := finish 11 (s.decAt s.cpu.hl)

/-- `DEC (IX|IY+d)` (R315). -/
def execDecAtIdx (x : Idx) (d : Byte) (s : State) : Out := finish 23 (s.decAt (s.cpu.idxAddr x d))

/-! ### General-purpose arithmetic and CPU control (R320 to R331) -/

/-- `NEG` (R322). -/
def State.negate (s : State) : State := s.setAF (sub8 0 s.cpu.a false).1 (sub8 0 s.cpu.a false).2

/-- `IM <- m` (R329 to R331). -/
def State.setIm (s : State) (m : IntMode) : State := s.setCpu { s.cpu with im := m }

/-- `DAA` (R320). -/
def execDaa (s : State) : Out := finish 4 (s.setAF (daaOf s.cpu.a s.cpu.f).1 (daaOf s.cpu.a s.cpu.f).2)

/-- `CPL` (R321). -/
def execCpl (s : State) : Out :=
    finish 4 (s.setAF (s.cpu.a ^^^ 0xFF) ((s.cpu.f &&& 0xC5) ||| 0x12 ||| ((s.cpu.a ^^^ 0xFF) &&& 0x28)))

/-- `NEG` (R322). -/
def execNeg (s : State) : Out := finish 8 s.negate

/-- `CCF` (R323); `X` and `Y` are free. -/
def execCcf (s : State) : Out :=
  finish 4 ((s.setF ((s.cpu.f &&& 0xC4) ||| bitIf s.cpu.carry 0x10 ||| ((s.cpu.f &&& 0x01) ^^^ 0x01) |||
    (s.anyByte &&& 0x28))).drawn)

/-- `SCF` (R324); `X` and `Y` are free. -/
def execScf (s : State) : Out := finish 4 ((s.setF ((s.cpu.f &&& 0xC4) ||| 0x01 ||| (s.anyByte &&& 0x28))).drawn)

/-- `NOP` (R325). -/
def execNop (s : State) : Out := finish 4 s

/-- `HALT` (R326). -/
def execHalt (s : State) : Out := finish 4 (s.setCpu { s.cpu with pc := s.cpu.pc - 1, halted := true })

/-- `DI` (R327). -/
def execDi (s : State) : Out := finish 4 (s.setCpu { s.cpu with iff1 := false, iff2 := false })

/-- `EI` (R328). -/
def execEi (s : State) : Out := finish 4 (s.setCpu { s.cpu with iff1 := true, iff2 := true, eiDelay := true })

/-- `IM 0` (R329). -/
def execIm0 (s : State) : Out := finish 8 (s.setIm .im0)

/-- `IM 1` (R330). -/
def execIm1 (s : State) : Out := finish 8 (s.setIm .im1)

/-- `IM 2` (R331). -/
def execIm2 (s : State) : Out := finish 8 (s.setIm .im2)

/-! ### 16-bit arithmetic (R340 to R347) -/

/-- `ADD HL,ss` (R340). -/
def execAddHlPair (p : Pair) (s : State) : Out :=
    finish 11 ((s.setHl (add16 s.cpu.f s.cpu.hl (s.cpu.pair p)).1).setF (add16 s.cpu.f s.cpu.hl (s.cpu.pair p)).2)

/-- `ADC HL,ss` (R341). -/
def execAdcHlPair (p : Pair) (s : State) : Out :=
  finish 15 ((s.setHl (adc16 s.cpu.hl (s.cpu.pair p) s.cpu.carry).1).setF
    (adc16 s.cpu.hl (s.cpu.pair p) s.cpu.carry).2)

/-- `SBC HL,ss` (R342). -/
def execSbcHlPair (p : Pair) (s : State) : Out :=
  finish 15 ((s.setHl (sbc16 s.cpu.hl (s.cpu.pair p) s.cpu.carry).1).setF
    (sbc16 s.cpu.hl (s.cpu.pair p) s.cpu.carry).2)

/-- `ADD IX|IY,pp` (R343). -/
def execAddIdxPair (x : Idx) (p : IdxPair) (s : State) : Out :=
  finish 15 ((s.setIdx x (add16 s.cpu.f (s.cpu.idx x) (s.cpu.idxPair x p)).1).setF
    (add16 s.cpu.f (s.cpu.idx x) (s.cpu.idxPair x p)).2)

/-- `INC ss` (R344). -/
def execIncPair (p : Pair) (s : State) : Out := finish 6 (s.setPair p (s.cpu.pair p + 1))

/-- `INC IX|IY` (R345). -/
def execIncIdx (x : Idx) (s : State) : Out := finish 10 (s.setIdx x (s.cpu.idx x + 1))

/-- `DEC ss` (R346). -/
def execDecPair (p : Pair) (s : State) : Out := finish 6 (s.setPair p (s.cpu.pair p - 1))

/-- `DEC IX|IY` (R347). -/
def execDecIdx (x : Idx) (s : State) : Out := finish 10 (s.setIdx x (s.cpu.idx x - 1))

end Sys2Proof.Machine
end

