-- ==== Sys2Proof/Machine/InOut.lean ====
section
/-! DEFINITION. The meanings of spec/45_input_output.md: input and output, single and block. The port events are those of Machine/Ula.lean. -/

namespace Sys2Proof.Machine

/-! ### Shared operations -/

/-- An input that takes `n` T-states; `use` says what becomes of the byte. -/
def input (n : Nat) (port : Word) (use : Byte → State → State) (s : State) : Out := andThen (s.portRead port use) (finish n)

/-- The flags of an input from port `BC` (R511, R559). -/
def State.inputFlags (s : State) (v : Byte) : State := s.setF (flagsSZXYP v ||| (s.cpu.f &&& 0x01))

/-- An output that takes `n` T-states. -/
def output (n : Nat) (port : Word) (v : Byte) (s : State) : Out := andThen (s.portWrite port v) (finish n)

/-- The end of a block input or output: the new flags, of which all but `Z` and `N` are free (R512, R518). -/
def State.ioBlockFlags (s : State) : State := (s.setF (flagsIoBlock s.anyByte s.cpu.b)).drawn

/-- What a block input does with its byte, the address stepping by `step` (R512, R514). -/
def State.storeInput (step : Word) (v : Byte) (s : State) : State :=
  let t := s.memWrite s.cpu.hl v
  (t.setCpu { (t.cpu.setHl (s.cpu.hl + step)) with b := s.cpu.b - 1 }).ioBlockFlags

/-- The input of one byte of a block (R512, R514). -/
def State.inBlock (s : State) (step : Word) : Out := s.portRead s.cpu.portC (State.storeInput step)

/-- The output of one byte, with the address stepping by `step`; the port is `BC` with the new `B` (R518, R520). -/
def State.outBlock (s : State) (step : Word) : Out :=
  let t := s.setReg .b (s.cpu.b - 1)
  andThen (t.portWrite t.cpu.portC (s.memRead s.cpu.hl)) fun u => .next (u.setHl (s.cpu.hl + step)).ioBlockFlags

/-- The end of a repeating input or output: it repeats while `B` is not zero (R513, R519). -/
def finishIoBlock (s : State) : Out :=
  if s.cpu.b != 0 then finish 21 (s.setPc (s.cpu.pc - 2)) else finish 16 s

/-! ### Input (R510 to R515) -/

/-- `IN A,(n)` (R510). -/
def execInAN (n : Byte) (s : State) : Out := input 11 (s.cpu.portAN n) (fun v t => t.setReg .a v) s

/-- `IN r,(C)` (R511). -/
def execInRC (r : Reg8) (s : State) : Out := input 12 s.cpu.portC (fun v t => (t.setReg r v).inputFlags v) s

/-- `INI` (R512). -/
def execIni (s : State) : Out := andThen (s.inBlock 1) (finish 16)

/-- `INIR` (R513). -/
def execInir (s : State) : Out := andThen (s.inBlock 1) finishIoBlock

/-- `IND` (R514). -/
def execInd (s : State) : Out := andThen (s.inBlock (-1)) (finish 16)

/-- `INDR` (R515). -/
def execIndr (s : State) : Out := andThen (s.inBlock (-1)) finishIoBlock

/-! ### Output (R516 to R521) -/

/-- `OUT (n),A` (R516). -/
def execOutNA (n : Byte) (s : State) : Out := output 11 (s.cpu.portAN n) s.cpu.a s

/-- `OUT (C),r` (R517). -/
def execOutCR (r : Reg8) (s : State) : Out := output 12 s.cpu.portC (s.cpu.reg r) s

/-- `OUTI` (R518). -/
def execOuti (s : State) : Out := andThen (s.outBlock 1) (finish 16)

/-- `OTIR` (R519). -/
def execOtir (s : State) : Out := andThen (s.outBlock 1) finishIoBlock

/-- `OUTD` (R520). -/
def execOutd (s : State) : Out := andThen (s.outBlock (-1)) (finish 16)

/-- `OTDR` (R521). -/
def execOtdr (s : State) : Out := andThen (s.outBlock (-1)) finishIoBlock

end Sys2Proof.Machine
end

