-- ==== Sys2Proof/Machine/Jump.lean ====
section
/-! DEFINITION. The meanings of spec/44_jump_call_return.md: jumps, calls, returns and restarts. None changes a flag (R450). -/

namespace Sys2Proof.Machine

/-! ### Shared operations -/

/-- A relative jump taken (R118, R453). -/
def State.jumpRel (s : State) (e : Byte) : State := s.setPc (s.cpu.relTarget e)

/-- A call: `Push16(PC); pc <- target` (R461, R467). -/
def State.call (s : State) (target : Word) : State := (s.push16 s.cpu.pc).setPc target

/-- A return: `pc <- Pop16()` (R463). -/
def State.doReturn (s : State) : State := s.popped.setPc s.popWord

/-- `DJNZ`'s decrement of `B`, which sets no flag (R460). -/
def State.decB (s : State) : State := s.setReg .b (s.cpu.b - 1)

/-! ### Jumps (R451 to R460) -/

/-- `JP nn` (R451). -/
def execJpNn (nn : Word) (s : State) : Out := finish 10 (s.setPc nn)

/-- `JP cc,nn` (R452). -/
def execJpCcNn (cc : Cond) (nn : Word) (s : State) : Out := finish 10 (if s.cpu.holds cc then s.setPc nn else s)

/-- `JR e` (R453). -/
def execJr (e : Byte) (s : State) : Out := finish 12 (s.jumpRel e)

/-- `JR C,e` (R454). -/
def execJrC (e : Byte) (s : State) : Out := if s.cpu.holds .c then finish 12 (s.jumpRel e) else finish 7 s

/-- `JR NC,e` (R455). -/
def execJrNc (e : Byte) (s : State) : Out := if s.cpu.holds .nc then finish 12 (s.jumpRel e) else finish 7 s

/-- `JR Z,e` (R456). -/
def execJrZ (e : Byte) (s : State) : Out := if s.cpu.holds .z then finish 12 (s.jumpRel e) else finish 7 s

/-- `JR NZ,e` (R457). -/
def execJrNz (e : Byte) (s : State) : Out := if s.cpu.holds .nz then finish 12 (s.jumpRel e) else finish 7 s

/-- `JP (HL)` (R458). -/
def execJpHl (s : State) : Out := finish 4 (s.setPc s.cpu.hl)

/-- `JP (IX|IY)` (R459). -/
def execJpIdx (x : Idx) (s : State) : Out := finish 8 (s.setPc (s.cpu.idx x))

/-- `DJNZ e` (R460). -/
def execDjnz (e : Byte) (s : State) : Out := if s.cpu.b - 1 != 0 then finish 13 (s.decB.jumpRel e) else finish 8 s.decB

/-! ### Calls and returns (R461 to R467) -/

/-- `CALL nn` (R461). -/
def execCallNn (nn : Word) (s : State) : Out := finish 17 (s.call nn)

/-- `CALL cc,nn` (R462). -/
def execCallCcNn (cc : Cond) (nn : Word) (s : State) : Out := if s.cpu.holds cc then finish 17 (s.call nn) else finish 10 s

/-- `RET` (R463). -/
def execRet (s : State) : Out := finish 10 s.doReturn

/-- `RET cc` (R464). -/
def execRetCc (cc : Cond) (s : State) : Out := if s.cpu.holds cc then finish 11 s.doReturn else finish 5 s

/-- `RETI` (R465). -/
def execReti (s : State) : Out := finish 14 s.returnFromInterrupt

/-- `RETN` (R466). -/
def execRetn (s : State) : Out := finish 14 s.returnFromInterrupt

/-- `RST p` (R467). -/
def execRst (t : BitVec 3) (s : State) : Out := finish 11 (s.call (restartTarget t))

end Sys2Proof.Machine
end

