-- ==== Sys2Proof/Machine/Load.lean ====
section
/-! DEFINITION. The meanings of spec/41_load_exchange_block.md: loads, exchanges, block transfer and block search.
Each runs with all bytes of its instruction fetched (R200) and answers the T-states of its rule. -/

namespace Sys2Proof.Machine

/-! ### 8-bit loads (R201 to R218) -/

/-- `LD r,r'` (R201). -/
def execLdRR (r : Reg8) (r2 : Reg8) (s : State) : Out := finish 4 (s.setReg r (s.cpu.reg r2))

/-- `LD r,n` (R202). -/
def execLdRN (r : Reg8) (n : Byte) (s : State) : Out := finish 7 (s.setReg r n)

/-- `LD r,(HL)` (R203). -/
def execLdRAtHl (r : Reg8) (s : State) : Out := finish 7 (s.setReg r (s.memRead s.cpu.hl))

/-- `LD r,(IX|IY+d)` (R204). -/
def execLdRAtIdx (x : Idx) (r : Reg8) (d : Byte) (s : State) : Out := finish 19 (s.setReg r (s.memRead (s.cpu.idxAddr x d)))

/-- `LD (HL),r` (R205). -/
def execLdAtHlR (r : Reg8) (s : State) : Out := finish 7 (s.memWrite s.cpu.hl (s.cpu.reg r))

/-- `LD (IX|IY+d),r` (R206). -/
def execLdAtIdxR (x : Idx) (r : Reg8) (d : Byte) (s : State) : Out :=
  finish 19 (s.memWrite (s.cpu.idxAddr x d) (s.cpu.reg r))

/-- `LD (HL),n` (R207). -/
def execLdAtHlN (n : Byte) (s : State) : Out := finish 10 (s.memWrite s.cpu.hl n)

/-- `LD (IX|IY+d),n` (R208). -/
def execLdAtIdxN (x : Idx) (d : Byte) (n : Byte) (s : State) : Out := finish 19 (s.memWrite (s.cpu.idxAddr x d) n)

/-- `LD A,(BC)` (R209). -/
def execLdAAtBc (s : State) : Out := finish 7 (s.setReg .a (s.memRead s.cpu.bc))

/-- `LD A,(DE)` (R210). -/
def execLdAAtDe (s : State) : Out := finish 7 (s.setReg .a (s.memRead s.cpu.de))

/-- `LD A,(nn)` (R211). -/
def execLdAAtNn (nn : Word) (s : State) : Out := finish 13 (s.setReg .a (s.memRead nn))

/-- `LD (BC),A` (R212). -/
def execLdAtBcA (s : State) : Out := finish 7 (s.memWrite s.cpu.bc s.cpu.a)

/-- `LD (DE),A` (R213). -/
def execLdAtDeA (s : State) : Out := finish 7 (s.memWrite s.cpu.de s.cpu.a)

/-- `LD (nn),A` (R214). -/
def execLdAtNnA (nn : Word) (s : State) : Out := finish 13 (s.memWrite nn s.cpu.a)

/-- `LD A,I` and `LD A,R` of the value `v`: `P/V` takes `IFF2` (R215, R216). -/
def State.loadSpecial (s : State) (v : Byte) : State :=
  s.setAF v (flagsSZXY v ||| bitIf s.cpu.iff2 0x04 ||| (s.cpu.f &&& 0x01))

/-- `LD A,I` (R215). -/
def execLdAI (s : State) : Out := finish 9 (s.loadSpecial s.cpu.i)

/-- `LD A,R` (R216); `R` already holds the two counts of this fetch. -/
def execLdARefresh (s : State) : Out := finish 9 (s.loadSpecial s.cpu.r)

/-- `LD I,A` (R217). -/
def execLdIA (s : State) : Out := finish 9 (s.setCpu { s.cpu with i := s.cpu.a })

/-- `LD R,A` (R218). -/
def execLdRefreshA (s : State) : Out := finish 9 (s.setCpu { s.cpu with r := s.cpu.a })

/-! ### 16-bit loads (R220 to R233) -/

/-- `LD dd,nn` (R220). -/
def execLdPairNn (p : Pair) (nn : Word) (s : State) : Out := finish 10 (s.setPair p nn)

/-- `LD IX|IY,nn` (R221). -/
def execLdIdxNn (x : Idx) (nn : Word) (s : State) : Out := finish 14 (s.setIdx x nn)

/-- `LD HL,(nn)` (R222). -/
def execLdHlAtNn (nn : Word) (s : State) : Out := finish 16 (s.setHl (s.memRead16 nn))

/-- `LD dd,(nn)` (R223). -/
def execLdPairAtNn (p : Pair) (nn : Word) (s : State) : Out := finish 20 (s.setPair p (s.memRead16 nn))

/-- `LD IX|IY,(nn)` (R224). -/
def execLdIdxAtNn (x : Idx) (nn : Word) (s : State) : Out := finish 20 (s.setIdx x (s.memRead16 nn))

/-- `LD (nn),HL` (R225). -/
def execLdAtNnHl (nn : Word) (s : State) : Out := finish 16 (s.memWrite16 nn s.cpu.hl)

/-- `LD (nn),dd` (R226). -/
def execLdAtNnPair (p : Pair) (nn : Word) (s : State) : Out := finish 20 (s.memWrite16 nn (s.cpu.pair p))

/-- `LD (nn),IX|IY` (R227). -/
def execLdAtNnIdx (x : Idx) (nn : Word) (s : State) : Out := finish 20 (s.memWrite16 nn (s.cpu.idx x))

/-- `LD SP,HL` (R228). -/
def execLdSpHl (s : State) : Out := finish 6 (s.setSp s.cpu.hl)

/-- `LD SP,IX|IY` (R229). -/
def execLdSpIdx (x : Idx) (s : State) : Out := finish 10 (s.setSp (s.cpu.idx x))

/-- `PUSH qq` (R230). -/
def execPushPair (q : StackPair) (s : State) : Out := finish 11 (s.push16 (s.cpu.stackPair q))

/-- `PUSH IX|IY` (R231). -/
def execPushIdx (x : Idx) (s : State) : Out := finish 15 (s.push16 (s.cpu.idx x))

/-- `POP qq` (R232). -/
def execPopPair (q : StackPair) (s : State) : Out := finish 10 (s.popped.setCpu (s.popped.cpu.setStackPair q s.popWord))

/-- `POP IX|IY` (R233). -/
def execPopIdx (x : Idx) (s : State) : Out := finish 14 (s.popped.setIdx x s.popWord)

/-! ### Exchanges (R239 to R243) -/

/-- `EX DE,HL` (R239). -/
def execExDeHl (s : State) : Out := finish 4 (s.setCpu { s.cpu with d := s.cpu.h, e := s.cpu.l, h := s.cpu.d, l := s.cpu.e })

/-- `EX AF,AF'` (R240). -/
def execExAfAf (s : State) : Out :=
  finish 4 (s.setCpu { s.cpu with a := s.cpu.a2, f := s.cpu.f2, a2 := s.cpu.a, f2 := s.cpu.f })

/-- `EXX` (R241). -/
def execExx (s : State) : Out :=
  finish 4 (s.setCpu { s.cpu with
    b := s.cpu.b2, c := s.cpu.c2, d := s.cpu.d2, e := s.cpu.e2, h := s.cpu.h2, l := s.cpu.l2
    b2 := s.cpu.b, c2 := s.cpu.c, d2 := s.cpu.d, e2 := s.cpu.e, h2 := s.cpu.h, l2 := s.cpu.l })

/-- `EX (SP),HL` (R242). -/
def execExAtSpHl (s : State) : Out := finish 19 ((s.memWrite16 s.cpu.sp s.cpu.hl).setHl (s.memRead16 s.cpu.sp))

/-- `EX (SP),IX|IY` (R243). -/
def execExAtSpIdx (x : Idx) (s : State) : Out :=
  finish 23 ((s.memWrite16 s.cpu.sp (s.cpu.idx x)).setIdx x (s.memRead16 s.cpu.sp))

/-! ### Block transfer and block search (R244 to R251) -/

/-- The end of a block instruction: `PC` goes back to its first byte when it repeats, in 21 T-states, else 16 (R245). -/
def finishBlock (again : Bool) (s : State) : Out :=
  if again then finish 21 (s.setPc (s.cpu.pc - 2)) else finish 16 s

/-- The transfer of one byte, with the addresses stepping by `step` (R244, R246). -/
def State.ldBlock (s : State) (step : Word) : State :=
  let t := s.memRead s.cpu.hl
  let bc := s.cpu.bc - 1
  (s.memWrite s.cpu.de t).setCpu
    { (((s.cpu.setHl (s.cpu.hl + step)).setDe (s.cpu.de + step)).setBc bc) with f := flagsLdBlock s.cpu.f s.cpu.a t bc }

/-- The search of one byte, with the address stepping by `step` (R248, R250). -/
def State.cpBlock (s : State) (step : Word) : State :=
  let t := s.memRead s.cpu.hl
  let bc := s.cpu.bc - 1
  s.setCpu { ((s.cpu.setHl (s.cpu.hl + step)).setBc bc) with f := flagsCpBlock s.cpu.f s.cpu.a t bc }

/-- Does a repeating search go on: `BC` not zero after it, and no match (R249)? -/
def State.cpAgain (s : State) : Bool := s.cpu.bc - 1 != 0 && s.cpu.a - s.memRead s.cpu.hl != 0

/-- `LDI` (R244). -/
def execLdi (s : State) : Out := finish 16 (s.ldBlock 1)

/-- `LDD` (R246). -/
def execLdd (s : State) : Out := finish 16 (s.ldBlock (-1))

/-- `LDIR` (R245). -/
def execLdir (s : State) : Out := finishBlock (s.cpu.bc - 1 != 0) (s.ldBlock 1)

/-- `LDDR` (R247). -/
def execLddr (s : State) : Out := finishBlock (s.cpu.bc - 1 != 0) (s.ldBlock (-1))

/-- `CPI` (R248). -/
def execCpi (s : State) : Out := finish 16 (s.cpBlock 1)

/-- `CPD` (R250). -/
def execCpd (s : State) : Out := finish 16 (s.cpBlock (-1))

/-- `CPIR` (R249). -/
def execCpir (s : State) : Out := finishBlock s.cpAgain (s.cpBlock 1)

/-- `CPDR` (R251). -/
def execCpdr (s : State) : Out := finishBlock s.cpAgain (s.cpBlock (-1))

end Sys2Proof.Machine
end

