-- ==== Sys2Proof/Machine/Rotate.lean ====
section
/-! DEFINITION. The meanings of spec/43_rotate_shift_bit.md: rotates, shifts, digit rotates, bit test, set and reset. -/

namespace Sys2Proof.Machine

/-! ### Shared operations (R400) -/

/-- A rotate or shift of a register (R400). -/
def State.rotReg (s : State) (op : RotOp) (r : Reg8) : State :=
  (s.setReg r (rotResult op s.cpu.carry (s.cpu.reg r))).setF (rotFlags op s.cpu.carry (s.cpu.reg r))

/-- A rotate or shift of a memory byte (R400). -/
def State.rotAt (s : State) (op : RotOp) (a : Word) : State :=
  (s.memWrite a (rotResult op s.cpu.carry (s.memRead a))).setF (rotFlags op s.cpu.carry (s.memRead a))

/-- A rotate of the accumulator (R401 to R404). -/
def State.rotAcc (s : State) (op : RotOp) : State :=
  s.setAF (rotResult op s.cpu.carry s.cpu.a) (rotAccFlags op s.cpu.f s.cpu.a)

/-- `BIT b` of the byte `v`, with `X` and `Y` from `xy` (R420 to R422). -/
def State.bitTest (s : State) (b : BitVec 3) (v xy : Byte) : State := s.setF (flagsBit s.cpu.f b v xy)

/-! ### Accumulator rotates (R401 to R404) -/

/-- `RLCA` (R401). -/
def execRlca (s : State) : Out := finish 4 (s.rotAcc .rlc)

/-- `RLA` (R402). -/
def execRla (s : State) : Out := finish 4 (s.rotAcc .rl)

/-- `RRCA` (R403). -/
def execRrca (s : State) : Out := finish 4 (s.rotAcc .rrc)

/-- `RRA` (R404). -/
def execRra (s : State) : Out := finish 4 (s.rotAcc .rr)

/-! ### Rotates and shifts (R405 to R411) -/

/-- `RLC r` (R405). -/
def execRlcR (r : Reg8) (s : State) : Out := finish 8 (s.rotReg .rlc r)

/-- `RLC (HL)` (R405). -/
def execRlcAtHl (s : State) : Out := finish 15 (s.rotAt .rlc s.cpu.hl)

/-- `RLC (IX|IY+d)` (R405). -/
def execRlcAtIdx (x : Idx) (d : Byte) (s : State) : Out := finish 23 (s.rotAt .rlc (s.cpu.idxAddr x d))

/-- `RL r` (R406). -/
def execRlR (r : Reg8) (s : State) : Out := finish 8 (s.rotReg .rl r)

/-- `RL (HL)` (R406). -/
def execRlAtHl (s : State) : Out := finish 15 (s.rotAt .rl s.cpu.hl)

/-- `RL (IX|IY+d)` (R406). -/
def execRlAtIdx (x : Idx) (d : Byte) (s : State) : Out := finish 23 (s.rotAt .rl (s.cpu.idxAddr x d))

/-- `RRC r` (R407). -/
def execRrcR (r : Reg8) (s : State) : Out := finish 8 (s.rotReg .rrc r)

/-- `RRC (HL)` (R407). -/
def execRrcAtHl (s : State) : Out := finish 15 (s.rotAt .rrc s.cpu.hl)

/-- `RRC (IX|IY+d)` (R407). -/
def execRrcAtIdx (x : Idx) (d : Byte) (s : State) : Out := finish 23 (s.rotAt .rrc (s.cpu.idxAddr x d))

/-- `RR r` (R408). -/
def execRrR (r : Reg8) (s : State) : Out := finish 8 (s.rotReg .rr r)

/-- `RR (HL)` (R408). -/
def execRrAtHl (s : State) : Out := finish 15 (s.rotAt .rr s.cpu.hl)

/-- `RR (IX|IY+d)` (R408). -/
def execRrAtIdx (x : Idx) (d : Byte) (s : State) : Out := finish 23 (s.rotAt .rr (s.cpu.idxAddr x d))

/-- `SLA r` (R409). -/
def execSlaR (r : Reg8) (s : State) : Out := finish 8 (s.rotReg .sla r)

/-- `SLA (HL)` (R409). -/
def execSlaAtHl (s : State) : Out := finish 15 (s.rotAt .sla s.cpu.hl)

/-- `SLA (IX|IY+d)` (R409). -/
def execSlaAtIdx (x : Idx) (d : Byte) (s : State) : Out := finish 23 (s.rotAt .sla (s.cpu.idxAddr x d))

/-- `SRA r` (R410). -/
def execSraR (r : Reg8) (s : State) : Out := finish 8 (s.rotReg .sra r)

/-- `SRA (HL)` (R410). -/
def execSraAtHl (s : State) : Out := finish 15 (s.rotAt .sra s.cpu.hl)

/-- `SRA (IX|IY+d)` (R410). -/
def execSraAtIdx (x : Idx) (d : Byte) (s : State) : Out := finish 23 (s.rotAt .sra (s.cpu.idxAddr x d))

/-- `SRL r` (R411). -/
def execSrlR (r : Reg8) (s : State) : Out := finish 8 (s.rotReg .srl r)

/-- `SRL (HL)` (R411). -/
def execSrlAtHl (s : State) : Out := finish 15 (s.rotAt .srl s.cpu.hl)

/-- `SRL (IX|IY+d)` (R411). -/
def execSrlAtIdx (x : Idx) (d : Byte) (s : State) : Out := finish 23 (s.rotAt .srl (s.cpu.idxAddr x d))

/-! ### Digit rotates (R412, R413) -/

/-- The flags of the digit rotates, from the new `A` (R412, R413). -/
def flagsDigit (f a : Byte) : Byte := flagsSZXYP a ||| (f &&& 0x01)

/-- The new `A` of `RLD` from `A` and the memory byte (R412). -/
def rldA (a t : Byte) : Byte := (a &&& (0xF0 : Byte)) ||| (t >>> 4)

/-- The new `A` of `RRD` from `A` and the memory byte (R413). -/
def rrdA (a t : Byte) : Byte := (a &&& 0xF0) ||| (t &&& 0x0F)

/-- `RLD` (R412). -/
def execRld (s : State) : Out :=
  let t := s.memRead s.cpu.hl
  finish 18 ((s.memWrite s.cpu.hl ((t <<< 4) ||| (s.cpu.a &&& 0x0F))).setAF (rldA s.cpu.a t)
    (flagsDigit s.cpu.f (rldA s.cpu.a t)))

/-- `RRD` (R413). -/
def execRrd (s : State) : Out :=
  let t := s.memRead s.cpu.hl
  finish 18 ((s.memWrite s.cpu.hl ((s.cpu.a <<< 4) ||| (t >>> 4))).setAF (rrdA s.cpu.a t)
    (flagsDigit s.cpu.f (rrdA s.cpu.a t)))

/-! ### Bit test, set and reset (R420 to R424) -/

/-- `BIT b,r` (R420). -/
def execBitR (b : BitVec 3) (r : Reg8) (s : State) : Out := finish 8 (s.bitTest b (s.cpu.reg r) (s.cpu.reg r))

/-- `BIT b,(HL)` (R421); `X` and `Y` are free. -/
def execBitAtHl (b : BitVec 3) (s : State) : Out := finish 12 ((s.bitTest b (s.memRead s.cpu.hl) s.anyByte).drawn)

/-- `BIT b,(IX|IY+d)` (R422). -/
def execBitAtIdx (x : Idx) (b : BitVec 3) (d : Byte) (s : State) : Out :=
  finish 20 (s.bitTest b (s.memRead (s.cpu.idxAddr x d)) (hiByte (s.cpu.idxAddr x d)))

/-- `SET b,r` (R423). -/
def execSetR (b : BitVec 3) (r : Reg8) (s : State) : Out := finish 8 (s.setReg r (setBit b (s.cpu.reg r)))

/-- `SET b,(HL)` (R423). -/
def execSetAtHl (b : BitVec 3) (s : State) : Out := finish 15 (s.memWrite s.cpu.hl (setBit b (s.memRead s.cpu.hl)))

/-- `SET b,(IX|IY+d)` (R423). -/
def execSetAtIdx (x : Idx) (b : BitVec 3) (d : Byte) (s : State) : Out :=
  finish 23 (s.memWrite (s.cpu.idxAddr x d) (setBit b (s.memRead (s.cpu.idxAddr x d))))

/-- `RES b,r` (R424). -/
def execResR (b : BitVec 3) (r : Reg8) (s : State) : Out := finish 8 (s.setReg r (resetBit b (s.cpu.reg r)))

/-- `RES b,(HL)` (R424). -/
def execResAtHl (b : BitVec 3) (s : State) : Out := finish 15 (s.memWrite s.cpu.hl (resetBit b (s.memRead s.cpu.hl)))

/-- `RES b,(IX|IY+d)` (R424). -/
def execResAtIdx (x : Idx) (b : BitVec 3) (d : Byte) (s : State) : Out :=
  finish 23 (s.memWrite (s.cpu.idxAddr x d) (resetBit b (s.memRead (s.cpu.idxAddr x d))))

end Sys2Proof.Machine
end

