-- ==== Sys2Proof/Machine/Undoc.lean ====
section
/-! DEFINITION. The meanings of spec/46_undocumented_forms.md but for the prefixes: index halves, the eighth shift, the indexed CB
forms with a register field, and the mirrors and no-ops of the ED table. -/

namespace Sys2Proof.Machine

/-! ### Index-register halves (R551 to R554) -/

/-- `LD r*,IXH|IXL|IYH|IYL` (R551); `H` and `L` as destination name the halves. -/
def execLdRHalf (x : Idx) (r : Reg8) (hf : Half) (s : State) : Out :=
  finish 8 (s.setCpu (s.cpu.setYReg x r (s.cpu.half x hf)))

/-- `LD IXH|IXL|IYH|IYL,r` (R551). -/
def execLdHalfR (x : Idx) (hf : Half) (r : Reg8) (s : State) : Out := finish 8 (s.setHalf x hf (s.cpu.yReg x r))

/-- `LD IXH|IXL|IYH|IYL,n` (R552). -/
def execLdHalfN (x : Idx) (hf : Half) (n : Byte) (s : State) : Out := finish 11 (s.setHalf x hf n)

/-- `ADD A,IXH|IXL|IYH|IYL` (R553). -/
def execAddAHalf (x : Idx) (hf : Half) (s : State) : Out := finish 8 (s.aluAdd (s.cpu.half x hf))

/-- `ADC A,IXH|IXL|IYH|IYL` (R553). -/
def execAdcAHalf (x : Idx) (hf : Half) (s : State) : Out := finish 8 (s.aluAdc (s.cpu.half x hf))

/-- `SUB IXH|IXL|IYH|IYL` (R553). -/
def execSubHalf (x : Idx) (hf : Half) (s : State) : Out := finish 8 (s.aluSub (s.cpu.half x hf))

/-- `SBC A,IXH|IXL|IYH|IYL` (R553). -/
def execSbcAHalf (x : Idx) (hf : Half) (s : State) : Out := finish 8 (s.aluSbc (s.cpu.half x hf))

/-- `AND IXH|IXL|IYH|IYL` (R553). -/
def execAndHalf (x : Idx) (hf : Half) (s : State) : Out := finish 8 (s.aluAnd (s.cpu.half x hf))

/-- `XOR IXH|IXL|IYH|IYL` (R553). -/
def execXorHalf (x : Idx) (hf : Half) (s : State) : Out := finish 8 (s.aluXor (s.cpu.half x hf))

/-- `OR IXH|IXL|IYH|IYL` (R553). -/
def execOrHalf (x : Idx) (hf : Half) (s : State) : Out := finish 8 (s.aluOr (s.cpu.half x hf))

/-- `CP IXH|IXL|IYH|IYL` (R553). -/
def execCpHalf (x : Idx) (hf : Half) (s : State) : Out := finish 8 (s.aluCp (s.cpu.half x hf))

/-- `INC IXH|IXL|IYH|IYL` (R554). -/
def execIncHalf (x : Idx) (hf : Half) (s : State) : Out :=
    finish 8 ((s.setHalf x hf (inc8 s.cpu.f (s.cpu.half x hf)).1).setF (inc8 s.cpu.f (s.cpu.half x hf)).2)

/-- `DEC IXH|IXL|IYH|IYL` (R554). -/
def execDecHalf (x : Idx) (hf : Half) (s : State) : Out :=
    finish 8 ((s.setHalf x hf (dec8 s.cpu.f (s.cpu.half x hf)).1).setF (dec8 s.cpu.f (s.cpu.half x hf)).2)

/-! ### The eighth shift (R555) -/

/-- `SLL r` (R555). -/
def execSllR (r : Reg8) (s : State) : Out := finish 8 (s.rotReg .sll r)

/-- `SLL (HL)` (R555). -/
def execSllAtHl (s : State) : Out := finish 15 (s.rotAt .sll s.cpu.hl)

/-- `SLL (IX|IY+d)` (R555). -/
def execSllAtIdx (x : Idx) (d : Byte) (s : State) : Out := finish 23 (s.rotAt .sll (s.cpu.idxAddr x d))

/-! ### Indexed CB forms with a register field (R556 to R558) -/

/-- A rotate or shift of a memory byte, with the result copied to a register (R556). -/
def State.rotAtCopy (s : State) (op : RotOp) (a : Word) (r : Reg8) : State :=
  (s.rotAt op a).setReg r (rotResult op s.cpu.carry (s.memRead a))

/-- `RLC (IX|IY+d),r` (R556). -/
def execRlcAtIdxR (x : Idx) (d : Byte) (r : Reg8) (s : State) : Out := finish 23 (s.rotAtCopy .rlc (s.cpu.idxAddr x d) r)

/-- `RRC (IX|IY+d),r` (R556). -/
def execRrcAtIdxR (x : Idx) (d : Byte) (r : Reg8) (s : State) : Out := finish 23 (s.rotAtCopy .rrc (s.cpu.idxAddr x d) r)

/-- `RL (IX|IY+d),r` (R556). -/
def execRlAtIdxR (x : Idx) (d : Byte) (r : Reg8) (s : State) : Out := finish 23 (s.rotAtCopy .rl (s.cpu.idxAddr x d) r)

/-- `RR (IX|IY+d),r` (R556). -/
def execRrAtIdxR (x : Idx) (d : Byte) (r : Reg8) (s : State) : Out := finish 23 (s.rotAtCopy .rr (s.cpu.idxAddr x d) r)

/-- `SLA (IX|IY+d),r` (R556). -/
def execSlaAtIdxR (x : Idx) (d : Byte) (r : Reg8) (s : State) : Out := finish 23 (s.rotAtCopy .sla (s.cpu.idxAddr x d) r)

/-- `SRA (IX|IY+d),r` (R556). -/
def execSraAtIdxR (x : Idx) (d : Byte) (r : Reg8) (s : State) : Out := finish 23 (s.rotAtCopy .sra (s.cpu.idxAddr x d) r)

/-- `SLL (IX|IY+d),r` (R556). -/
def execSllAtIdxR (x : Idx) (d : Byte) (r : Reg8) (s : State) : Out := finish 23 (s.rotAtCopy .sll (s.cpu.idxAddr x d) r)

/-- `SRL (IX|IY+d),r` (R556). -/
def execSrlAtIdxR (x : Idx) (d : Byte) (r : Reg8) (s : State) : Out := finish 23 (s.rotAtCopy .srl (s.cpu.idxAddr x d) r)

/-- A memory byte replaced by `v`, which a register receives too (R557). -/
def State.writeCopy (s : State) (a : Word) (r : Reg8) (v : Byte) : State := (s.memWrite a v).setReg r v

/-- `SET b,(IX|IY+d),r` (R557). -/
def execSetAtIdxR (x : Idx) (b : BitVec 3) (d : Byte) (r : Reg8) (s : State) : Out :=
    finish 23 (s.writeCopy (s.cpu.idxAddr x d) r (setBit b (s.memRead (s.cpu.idxAddr x d))))

/-- `RES b,(IX|IY+d),r` (R557). -/
def execResAtIdxR (x : Idx) (b : BitVec 3) (d : Byte) (r : Reg8) (s : State) : Out :=
    finish 23 (s.writeCopy (s.cpu.idxAddr x d) r (resetBit b (s.memRead (s.cpu.idxAddr x d))))

/-- `BIT b,(IX|IY+d) (mirror)` (R558). -/
def execBitAtIdxMirror (x : Idx) (b : BitVec 3) (d : Byte) (_r : Reg8) (s : State) : Out :=
  finish 20 (s.bitTest b (s.memRead (s.cpu.idxAddr x d)) (hiByte (s.cpu.idxAddr x d)))

/-! ### ED-table oddities (R559 to R565) -/

/-- `IN F,(C)` (R559). -/
def execInFC (s : State) : Out := input 12 s.cpu.portC (fun v t => t.inputFlags v) s

/-- `OUT (C),0` (R560). -/
def execOutC0 (s : State) : Out := output 12 s.cpu.portC 0 s

/-- `NEG (mirror)` (R561). -/
def execNegMirror (_v : BitVec 3) (s : State) : Out := finish 8 s.negate

/-- `RETN (mirror)` (R562). -/
def execRetnMirror (_v : BitVec 3) (s : State) : Out := finish 14 s.returnFromInterrupt

/-- `IM 0 (mirror)` (R563). -/
def execIm0Mirror4E (s : State) : Out := finish 8 (s.setIm .im0)

/-- `IM 0 (mirror)` (R563). -/
def execIm0Mirror66 (s : State) : Out := finish 8 (s.setIm .im0)

/-- `IM 0 (mirror)` (R563). -/
def execIm0Mirror6E (s : State) : Out := finish 8 (s.setIm .im0)

/-- `IM 1 (mirror)` (R563). -/
def execIm1Mirror (s : State) : Out := finish 8 (s.setIm .im1)

/-- `IM 2 (mirror)` (R563). -/
def execIm2Mirror (s : State) : Out := finish 8 (s.setIm .im2)

/-- `NOP (ED 77)` (R565). -/
def execNopEd77 (s : State) : Out := finish 8 s

/-- `NOP (ED 7F)` (R565). -/
def execNopEd7F (s : State) : Out := finish 8 s

/-- `NOP (undefined ED opcode)` (R565). -/
def execNopEdUndefined (_w : Byte) (s : State) : Out := finish 8 s

end Sys2Proof.Machine
end

