-- ==== Sys2Proof/Machine/Prefix.lean ====
section
/-! DEFINITION. The fetch of an instruction's bytes (R143 to R145), and the meanings of the prefix rows (R119 to R123, R141, R146,
R566 to R568): a prefix byte is no instruction of its own, it leads to the instruction that follows, in the same step. -/

namespace Sys2Proof.Machine

/-! ### Fetching -/

/-- The four bytes at `PC` and after it, the longest instruction (R110); addresses wrap (R25). -/
def State.bytesAtPc (s : State) : List Byte :=
  [s.memRead s.cpu.pc, s.memRead (s.cpu.pc + 1), s.memRead (s.cpu.pc + 2), s.memRead (s.cpu.pc + 3)]

/-- Is `op` one of the four prefix bytes (R119)? -/
def isPrefixByte (op : Byte) : Bool := op == 0xCB || op == 0xED || op == 0xDD || op == 0xFD

/-- How many M1 fetches read the first `len` bytes of a sequence that begins with `bs` (R144 to R146): one for an unprefixed
instruction, two for every prefixed one; none for no byte. -/
def m1Fetches (bs : List Byte) (len : Nat) : Nat :=
  match bs with
  | [] => 0
  | op :: _ => if len = 0 then 0 else if isPrefixByte op && decide (2 ≤ len) then 2 else 1

/-- `IncR()`, `n` times (R145). -/
def State.incRTimes (s : State) : Nat → State
  | 0 => s
  | n + 1 => s.incR.incRTimes n

/-- `PC` moved past `n` fetched bytes, of which `m1` by M1 fetches (R143, R144). -/
def State.fetched (s : State) (n m1 : Nat) : State :=
  (s.setPc (s.cpu.pc + BitVec.ofNat 16 n)).incRTimes m1

/-- `PFX <- p` (R30, R120). -/
def State.setPfx (s : State) (p : Pfx) : State := s.setCpu { s.cpu with pfx := p }

/-- The prefix state an index prefix sets (R120). -/
def pfxOf : Idx → Pfx
  | .ix => .ix
  | .iy => .iy

/-- The prefix state after a byte that may be an index prefix: of a chain the last one counts (R120, R567). -/
def pfxOfFirst (op : Byte) : Pfx := if op == 0xDD then .ix else if op == 0xFD then .iy else .none

/-! ### What a prefix leads to -/

/-- The instruction that the fetched bytes `lead` and the bytes at `PC` form is fetched to its end and run by `go`. -/
def afterBytes (go : Instr → State → Out) (lead : List Byte) (s : State) : Out :=
  match decode (lead ++ s.bytesAtPc) with
  | .ok (i, len) =>
    go i (s.fetched (len - lead.length) (m1Fetches (lead ++ s.bytesAtPc) len - m1Fetches lead lead.length))
  | .error _ => .refused .noInstruction

/-- `extra` T-states more, for an index prefix the instruction's own cost does not include (R141, R566). -/
def withExtra (extra : Nat) (o : Out) : Out := andThen o fun s => .next (s.took (s.cycles + extra))

/-- The prefix 0xCB (R121). -/
def overCb (go : Instr → State → Out) (s : State) : Out := afterBytes go [0xCB] s

/-- The prefix 0xED (R122). -/
def overEd (go : Instr → State → Out) (s : State) : Out := afterBytes go [0xED] s

/-- The prefix 0xDD or 0xFD (R120): before another index prefix it is ignored, at 4 T-states (R567). -/
def overIndex (go : Instr → State → Out) (x : Idx) (s : State) : Out :=
  if isIndexPrefix (s.memRead s.cpu.pc) then withExtra 4 (afterBytes go [] (s.setPfx (pfxOfFirst (s.memRead s.cpu.pc))))
  else afterBytes go [indexByte x] (s.setPfx (pfxOf x))

/-- The prefix pair `DD CB` or `FD CB` (R123). -/
def overIdxCb (go : Instr → State → Out) (x : Idx) (s : State) : Out :=
  afterBytes go [indexByte x, 0xCB] (s.setPfx (pfxOf x))

/-- An index prefix before an opcode `w` it does not change: 4 T-states, then the opcode as without prefix (R566); before 0xED
the prefix state is dropped (R568). -/
def overIgnored (go : Instr → State → Out) (x : Idx) (w : Byte) (s : State) : Out :=
  withExtra 4 (afterBytes go [w] (s.setPfx (if w == 0xED then .none else pfxOf x)))

/-- The meaning of every row, with `go` for what a prefix leads to. -/
def rowMeaning (go : Instr → State → Out) (i : Instr) (s : State) : Out :=
  match i with
  | .nop => execNop s
  | .ldPairNn p nn => execLdPairNn p nn s
  | .ldAtBcA => execLdAtBcA s
  | .incPair p => execIncPair p s
  | .incR r => execIncR r s
  | .decR r => execDecR r s
  | .ldRN r n => execLdRN r n s
  | .rlca => execRlca s
  | .exAfAf => execExAfAf s
  | .addHlPair p => execAddHlPair p s
  | .ldAAtBc => execLdAAtBc s
  | .decPair p => execDecPair p s
  | .rrca => execRrca s
  | .djnz e => execDjnz e s
  | .ldAtDeA => execLdAtDeA s
  | .rla => execRla s
  | .jr e => execJr e s
  | .ldAAtDe => execLdAAtDe s
  | .rra => execRra s
  | .jrNz e => execJrNz e s
  | .ldAtNnHl nn => execLdAtNnHl nn s
  | .daa => execDaa s
  | .jrZ e => execJrZ e s
  | .ldHlAtNn nn => execLdHlAtNn nn s
  | .cpl => execCpl s
  | .jrNc e => execJrNc e s
  | .ldAtNnA nn => execLdAtNnA nn s
  | .incAtHl => execIncAtHl s
  | .decAtHl => execDecAtHl s
  | .ldAtHlN n => execLdAtHlN n s
  | .scf => execScf s
  | .jrC e => execJrC e s
  | .ldAAtNn nn => execLdAAtNn nn s
  | .ccf => execCcf s
  | .ldRR r r2 => execLdRR r r2 s
  | .ldRAtHl r => execLdRAtHl r s
  | .ldAtHlR r => execLdAtHlR r s
  | .halt => execHalt s
  | .addAR r => execAddAR r s
  | .addAAtHl => execAddAAtHl s
  | .addAN n => execAddAN n s
  | .adcAR r => execAdcAR r s
  | .adcAAtHl => execAdcAAtHl s
  | .adcAN n => execAdcAN n s
  | .subR r => execSubR r s
  | .subAtHl => execSubAtHl s
  | .subN n => execSubN n s
  | .sbcAR r => execSbcAR r s
  | .sbcAAtHl => execSbcAAtHl s
  | .sbcAN n => execSbcAN n s
  | .andR r => execAndR r s
  | .andAtHl => execAndAtHl s
  | .andN n => execAndN n s
  | .xorR r => execXorR r s
  | .xorAtHl => execXorAtHl s
  | .xorN n => execXorN n s
  | .orR r => execOrR r s
  | .orAtHl => execOrAtHl s
  | .orN n => execOrN n s
  | .cpR r => execCpR r s
  | .cpAtHl => execCpAtHl s
  | .cpN n => execCpN n s
  | .retCc cc => execRetCc cc s
  | .popPair q => execPopPair q s
  | .jpCcNn cc nn => execJpCcNn cc nn s
  | .jpNn nn => execJpNn nn s
  | .outNA n => execOutNA n s
  | .exAtSpHl => execExAtSpHl s
  | .di => execDi s
  | .callCcNn cc nn => execCallCcNn cc nn s
  | .pushPair q => execPushPair q s
  | .rst t => execRst t s
  | .ret => execRet s
  | .exx => execExx s
  | .jpHl => execJpHl s
  | .ldSpHl => execLdSpHl s
  | .prefixCb => overCb go s
  | .inAN n => execInAN n s
  | .exDeHl => execExDeHl s
  | .ei => execEi s
  | .callNn nn => execCallNn nn s
  | .prefixDd => overIndex go .ix s
  | .prefixEd => overEd go s
  | .prefixFd => overIndex go .iy s
  | .rlcR r => execRlcR r s
  | .rlcAtHl => execRlcAtHl s
  | .rrcR r => execRrcR r s
  | .rrcAtHl => execRrcAtHl s
  | .rlR r => execRlR r s
  | .rlAtHl => execRlAtHl s
  | .rrR r => execRrR r s
  | .rrAtHl => execRrAtHl s
  | .slaR r => execSlaR r s
  | .slaAtHl => execSlaAtHl s
  | .sraR r => execSraR r s
  | .sraAtHl => execSraAtHl s
  | .sllR r => execSllR r s
  | .sllAtHl => execSllAtHl s
  | .srlR r => execSrlR r s
  | .srlAtHl => execSrlAtHl s
  | .bitR b r => execBitR b r s
  | .bitAtHl b => execBitAtHl b s
  | .resR b r => execResR b r s
  | .resAtHl b => execResAtHl b s
  | .setR b r => execSetR b r s
  | .setAtHl b => execSetAtHl b s
  | .inRC r => execInRC r s
  | .inFC => execInFC s
  | .outCR r => execOutCR r s
  | .outC0 => execOutC0 s
  | .sbcHlPair p => execSbcHlPair p s
  | .adcHlPair p => execAdcHlPair p s
  | .ldAtNnPair p nn => execLdAtNnPair p nn s
  | .ldPairAtNn p nn => execLdPairAtNn p nn s
  | .neg => execNeg s
  | .negMirror v => execNegMirror v s
  | .retn => execRetn s
  | .reti => execReti s
  | .retnMirror v => execRetnMirror v s
  | .im0 => execIm0 s
  | .im1 => execIm1 s
  | .im2 => execIm2 s
  | .im0Mirror4E => execIm0Mirror4E s
  | .im0Mirror66 => execIm0Mirror66 s
  | .im0Mirror6E => execIm0Mirror6E s
  | .im1Mirror => execIm1Mirror s
  | .im2Mirror => execIm2Mirror s
  | .ldIA => execLdIA s
  | .ldRefreshA => execLdRefreshA s
  | .ldAI => execLdAI s
  | .ldARefresh => execLdARefresh s
  | .rrd => execRrd s
  | .rld => execRld s
  | .nopEd77 => execNopEd77 s
  | .nopEd7F => execNopEd7F s
  | .ldi => execLdi s
  | .cpi => execCpi s
  | .ini => execIni s
  | .outi => execOuti s
  | .ldd => execLdd s
  | .cpd => execCpd s
  | .ind => execInd s
  | .outd => execOutd s
  | .ldir => execLdir s
  | .cpir => execCpir s
  | .inir => execInir s
  | .otir => execOtir s
  | .lddr => execLddr s
  | .cpdr => execCpdr s
  | .indr => execIndr s
  | .otdr => execOtdr s
  | .nopEdUndefined w => execNopEdUndefined w s
  | .ldIdxNn x nn => execLdIdxNn x nn s
  | .addIdxPair x p => execAddIdxPair x p s
  | .ldAtNnIdx x nn => execLdAtNnIdx x nn s
  | .incIdx x => execIncIdx x s
  | .incHalf x hf => execIncHalf x hf s
  | .decHalf x hf => execDecHalf x hf s
  | .ldHalfN x hf n => execLdHalfN x hf n s
  | .ldIdxAtNn x nn => execLdIdxAtNn x nn s
  | .decIdx x => execDecIdx x s
  | .incAtIdx x d => execIncAtIdx x d s
  | .decAtIdx x d => execDecAtIdx x d s
  | .ldAtIdxN x d n => execLdAtIdxN x d n s
  | .ldRAtIdx x r d => execLdRAtIdx x r d s
  | .ldAtIdxR x r d => execLdAtIdxR x r d s
  | .ldRHalf x r hf => execLdRHalf x r hf s
  | .ldHalfR x hf r => execLdHalfR x hf r s
  | .addAHalf x hf => execAddAHalf x hf s
  | .addAAtIdx x d => execAddAAtIdx x d s
  | .adcAHalf x hf => execAdcAHalf x hf s
  | .adcAAtIdx x d => execAdcAAtIdx x d s
  | .subHalf x hf => execSubHalf x hf s
  | .subAtIdx x d => execSubAtIdx x d s
  | .sbcAHalf x hf => execSbcAHalf x hf s
  | .sbcAAtIdx x d => execSbcAAtIdx x d s
  | .andHalf x hf => execAndHalf x hf s
  | .andAtIdx x d => execAndAtIdx x d s
  | .xorHalf x hf => execXorHalf x hf s
  | .xorAtIdx x d => execXorAtIdx x d s
  | .orHalf x hf => execOrHalf x hf s
  | .orAtIdx x d => execOrAtIdx x d s
  | .cpHalf x hf => execCpHalf x hf s
  | .cpAtIdx x d => execCpAtIdx x d s
  | .popIdx x => execPopIdx x s
  | .exAtSpIdx x => execExAtSpIdx x s
  | .pushIdx x => execPushIdx x s
  | .jpIdx x => execJpIdx x s
  | .ldSpIdx x => execLdSpIdx x s
  | .prefixIdxCb x => overIdxCb go x s
  | .indexPrefixNoEffect x w => overIgnored go x w s
  | .rlcAtIdx x d => execRlcAtIdx x d s
  | .rlcAtIdxR x d r => execRlcAtIdxR x d r s
  | .rrcAtIdx x d => execRrcAtIdx x d s
  | .rrcAtIdxR x d r => execRrcAtIdxR x d r s
  | .rlAtIdx x d => execRlAtIdx x d s
  | .rlAtIdxR x d r => execRlAtIdxR x d r s
  | .rrAtIdx x d => execRrAtIdx x d s
  | .rrAtIdxR x d r => execRrAtIdxR x d r s
  | .slaAtIdx x d => execSlaAtIdx x d s
  | .slaAtIdxR x d r => execSlaAtIdxR x d r s
  | .sraAtIdx x d => execSraAtIdx x d s
  | .sraAtIdxR x d r => execSraAtIdxR x d r s
  | .sllAtIdx x d => execSllAtIdx x d s
  | .sllAtIdxR x d r => execSllAtIdxR x d r s
  | .srlAtIdx x d => execSrlAtIdx x d s
  | .srlAtIdxR x d r => execSrlAtIdxR x d r s
  | .bitAtIdx x b d => execBitAtIdx x b d s
  | .bitAtIdxMirror x b d r => execBitAtIdxMirror x b d r s
  | .resAtIdx x b d => execResAtIdx x b d s
  | .resAtIdxR x b d r => execResAtIdxR x b d r s
  | .setAtIdx x b d => execSetAtIdx x b d s
  | .setAtIdxR x b d r => execSetAtIdxR x b d r s

/-- The meaning of a row after at most `n` further prefixes; beyond them the chain of index prefixes has no end (R148). -/
def runAfterPrefix : Nat → Instr → State → Out
  | 0 => rowMeaning fun _ _ => .fault .endlessPrefixChain
  | n + 1 => rowMeaning (runAfterPrefix n)

/-- A chain longer than the address space has no end (R148). -/
def prefixLimit : Nat := 65536

/-! ### The prefix rows -/

/-- `(prefix CB)` (R121). -/
def execPrefixCb (s : State) : Out := overCb (runAfterPrefix prefixLimit) s

/-- `(prefix DD)` (R120). -/
def execPrefixDd (s : State) : Out := overIndex (runAfterPrefix prefixLimit) .ix s

/-- `(prefix ED)` (R122). -/
def execPrefixEd (s : State) : Out := overEd (runAfterPrefix prefixLimit) s

/-- `(prefix FD)` (R120). -/
def execPrefixFd (s : State) : Out := overIndex (runAfterPrefix prefixLimit) .iy s

/-- `(prefix DD CB | FD CB)` (R123). -/
def execPrefixIdxCb (x : Idx) (s : State) : Out := overIdxCb (runAfterPrefix prefixLimit) x s

/-- `(index prefix without effect)` (R566). -/
def execIndexPrefixNoEffect (x : Idx) (w : Byte) (s : State) : Out := overIgnored (runAfterPrefix prefixLimit) x w s

end Sys2Proof.Machine
end

