-- ==== Sys2Proof/Machine/Dispatch.lean ====
section
/-! DEFINITION. The meaning of every instruction: one arm per constructor, each a direct call of its meaning. -/

namespace Sys2Proof.Machine

/-- The meaning of an instruction, in a state in which all its bytes are fetched (R200). -/
def exec (i : Instr) (s : State) : Host.Outcome State Fault Refusal :=
  match i with
  | .nop => Sys2Proof.Machine.execNop s
  | .ldPairNn p nn => Sys2Proof.Machine.execLdPairNn p nn s
  | .ldAtBcA => Sys2Proof.Machine.execLdAtBcA s
  | .incPair p => Sys2Proof.Machine.execIncPair p s
  | .incR r => Sys2Proof.Machine.execIncR r s
  | .decR r => Sys2Proof.Machine.execDecR r s
  | .ldRN r n => Sys2Proof.Machine.execLdRN r n s
  | .rlca => Sys2Proof.Machine.execRlca s
  | .exAfAf => Sys2Proof.Machine.execExAfAf s
  | .addHlPair p => Sys2Proof.Machine.execAddHlPair p s
  | .ldAAtBc => Sys2Proof.Machine.execLdAAtBc s
  | .decPair p => Sys2Proof.Machine.execDecPair p s
  | .rrca => Sys2Proof.Machine.execRrca s
  | .djnz e => Sys2Proof.Machine.execDjnz e s
  | .ldAtDeA => Sys2Proof.Machine.execLdAtDeA s
  | .rla => Sys2Proof.Machine.execRla s
  | .jr e => Sys2Proof.Machine.execJr e s
  | .ldAAtDe => Sys2Proof.Machine.execLdAAtDe s
  | .rra => Sys2Proof.Machine.execRra s
  | .jrNz e => Sys2Proof.Machine.execJrNz e s
  | .ldAtNnHl nn => Sys2Proof.Machine.execLdAtNnHl nn s
  | .daa => Sys2Proof.Machine.execDaa s
  | .jrZ e => Sys2Proof.Machine.execJrZ e s
  | .ldHlAtNn nn => Sys2Proof.Machine.execLdHlAtNn nn s
  | .cpl => Sys2Proof.Machine.execCpl s
  | .jrNc e => Sys2Proof.Machine.execJrNc e s
  | .ldAtNnA nn => Sys2Proof.Machine.execLdAtNnA nn s
  | .incAtHl => Sys2Proof.Machine.execIncAtHl s
  | .decAtHl => Sys2Proof.Machine.execDecAtHl s
  | .ldAtHlN n => Sys2Proof.Machine.execLdAtHlN n s
  | .scf => Sys2Proof.Machine.execScf s
  | .jrC e => Sys2Proof.Machine.execJrC e s
  | .ldAAtNn nn => Sys2Proof.Machine.execLdAAtNn nn s
  | .ccf => Sys2Proof.Machine.execCcf s
  | .ldRR r r2 => Sys2Proof.Machine.execLdRR r r2 s
  | .ldRAtHl r => Sys2Proof.Machine.execLdRAtHl r s
  | .ldAtHlR r => Sys2Proof.Machine.execLdAtHlR r s
  | .halt => Sys2Proof.Machine.execHalt s
  | .addAR r => Sys2Proof.Machine.execAddAR r s
  | .addAAtHl => Sys2Proof.Machine.execAddAAtHl s
  | .addAN n => Sys2Proof.Machine.execAddAN n s
  | .adcAR r => Sys2Proof.Machine.execAdcAR r s
  | .adcAAtHl => Sys2Proof.Machine.execAdcAAtHl s
  | .adcAN n => Sys2Proof.Machine.execAdcAN n s
  | .subR r => Sys2Proof.Machine.execSubR r s
  | .subAtHl => Sys2Proof.Machine.execSubAtHl s
  | .subN n => Sys2Proof.Machine.execSubN n s
  | .sbcAR r => Sys2Proof.Machine.execSbcAR r s
  | .sbcAAtHl => Sys2Proof.Machine.execSbcAAtHl s
  | .sbcAN n => Sys2Proof.Machine.execSbcAN n s
  | .andR r => Sys2Proof.Machine.execAndR r s
  | .andAtHl => Sys2Proof.Machine.execAndAtHl s
  | .andN n => Sys2Proof.Machine.execAndN n s
  | .xorR r => Sys2Proof.Machine.execXorR r s
  | .xorAtHl => Sys2Proof.Machine.execXorAtHl s
  | .xorN n => Sys2Proof.Machine.execXorN n s
  | .orR r => Sys2Proof.Machine.execOrR r s
  | .orAtHl => Sys2Proof.Machine.execOrAtHl s
  | .orN n => Sys2Proof.Machine.execOrN n s
  | .cpR r => Sys2Proof.Machine.execCpR r s
  | .cpAtHl => Sys2Proof.Machine.execCpAtHl s
  | .cpN n => Sys2Proof.Machine.execCpN n s
  | .retCc cc => Sys2Proof.Machine.execRetCc cc s
  | .popPair q => Sys2Proof.Machine.execPopPair q s
  | .jpCcNn cc nn => Sys2Proof.Machine.execJpCcNn cc nn s
  | .jpNn nn => Sys2Proof.Machine.execJpNn nn s
  | .outNA n => Sys2Proof.Machine.execOutNA n s
  | .exAtSpHl => Sys2Proof.Machine.execExAtSpHl s
  | .di => Sys2Proof.Machine.execDi s
  | .callCcNn cc nn => Sys2Proof.Machine.execCallCcNn cc nn s
  | .pushPair q => Sys2Proof.Machine.execPushPair q s
  | .rst t => Sys2Proof.Machine.execRst t s
  | .ret => Sys2Proof.Machine.execRet s
  | .exx => Sys2Proof.Machine.execExx s
  | .jpHl => Sys2Proof.Machine.execJpHl s
  | .ldSpHl => Sys2Proof.Machine.execLdSpHl s
  | .prefixCb => Sys2Proof.Machine.execPrefixCb s
  | .inAN n => Sys2Proof.Machine.execInAN n s
  | .exDeHl => Sys2Proof.Machine.execExDeHl s
  | .ei => Sys2Proof.Machine.execEi s
  | .callNn nn => Sys2Proof.Machine.execCallNn nn s
  | .prefixDd => Sys2Proof.Machine.execPrefixDd s
  | .prefixEd => Sys2Proof.Machine.execPrefixEd s
  | .prefixFd => Sys2Proof.Machine.execPrefixFd s
  | .rlcR r => Sys2Proof.Machine.execRlcR r s
  | .rlcAtHl => Sys2Proof.Machine.execRlcAtHl s
  | .rrcR r => Sys2Proof.Machine.execRrcR r s
  | .rrcAtHl => Sys2Proof.Machine.execRrcAtHl s
  | .rlR r => Sys2Proof.Machine.execRlR r s
  | .rlAtHl => Sys2Proof.Machine.execRlAtHl s
  | .rrR r => Sys2Proof.Machine.execRrR r s
  | .rrAtHl => Sys2Proof.Machine.execRrAtHl s
  | .slaR r => Sys2Proof.Machine.execSlaR r s
  | .slaAtHl => Sys2Proof.Machine.execSlaAtHl s
  | .sraR r => Sys2Proof.Machine.execSraR r s
  | .sraAtHl => Sys2Proof.Machine.execSraAtHl s
  | .sllR r => Sys2Proof.Machine.execSllR r s
  | .sllAtHl => Sys2Proof.Machine.execSllAtHl s
  | .srlR r => Sys2Proof.Machine.execSrlR r s
  | .srlAtHl => Sys2Proof.Machine.execSrlAtHl s
  | .bitR b r => Sys2Proof.Machine.execBitR b r s
  | .bitAtHl b => Sys2Proof.Machine.execBitAtHl b s
  | .resR b r => Sys2Proof.Machine.execResR b r s
  | .resAtHl b => Sys2Proof.Machine.execResAtHl b s
  | .setR b r => Sys2Proof.Machine.execSetR b r s
  | .setAtHl b => Sys2Proof.Machine.execSetAtHl b s
  | .inRC r => Sys2Proof.Machine.execInRC r s
  | .inFC => Sys2Proof.Machine.execInFC s
  | .outCR r => Sys2Proof.Machine.execOutCR r s
  | .outC0 => Sys2Proof.Machine.execOutC0 s
  | .sbcHlPair p => Sys2Proof.Machine.execSbcHlPair p s
  | .adcHlPair p => Sys2Proof.Machine.execAdcHlPair p s
  | .ldAtNnPair p nn => Sys2Proof.Machine.execLdAtNnPair p nn s
  | .ldPairAtNn p nn => Sys2Proof.Machine.execLdPairAtNn p nn s
  | .neg => Sys2Proof.Machine.execNeg s
  | .negMirror v => Sys2Proof.Machine.execNegMirror v s
  | .retn => Sys2Proof.Machine.execRetn s
  | .reti => Sys2Proof.Machine.execReti s
  | .retnMirror v => Sys2Proof.Machine.execRetnMirror v s
  | .im0 => Sys2Proof.Machine.execIm0 s
  | .im1 => Sys2Proof.Machine.execIm1 s
  | .im2 => Sys2Proof.Machine.execIm2 s
  | .im0Mirror4E => Sys2Proof.Machine.execIm0Mirror4E s
  | .im0Mirror66 => Sys2Proof.Machine.execIm0Mirror66 s
  | .im0Mirror6E => Sys2Proof.Machine.execIm0Mirror6E s
  | .im1Mirror => Sys2Proof.Machine.execIm1Mirror s
  | .im2Mirror => Sys2Proof.Machine.execIm2Mirror s
  | .ldIA => Sys2Proof.Machine.execLdIA s
  | .ldRefreshA => Sys2Proof.Machine.execLdRefreshA s
  | .ldAI => Sys2Proof.Machine.execLdAI s
  | .ldARefresh => Sys2Proof.Machine.execLdARefresh s
  | .rrd => Sys2Proof.Machine.execRrd s
  | .rld => Sys2Proof.Machine.execRld s
  | .nopEd77 => Sys2Proof.Machine.execNopEd77 s
  | .nopEd7F => Sys2Proof.Machine.execNopEd7F s
  | .ldi => Sys2Proof.Machine.execLdi s
  | .cpi => Sys2Proof.Machine.execCpi s
  | .ini => Sys2Proof.Machine.execIni s
  | .outi => Sys2Proof.Machine.execOuti s
  | .ldd => Sys2Proof.Machine.execLdd s
  | .cpd => Sys2Proof.Machine.execCpd s
  | .ind => Sys2Proof.Machine.execInd s
  | .outd => Sys2Proof.Machine.execOutd s
  | .ldir => Sys2Proof.Machine.execLdir s
  | .cpir => Sys2Proof.Machine.execCpir s
  | .inir => Sys2Proof.Machine.execInir s
  | .otir => Sys2Proof.Machine.execOtir s
  | .lddr => Sys2Proof.Machine.execLddr s
  | .cpdr => Sys2Proof.Machine.execCpdr s
  | .indr => Sys2Proof.Machine.execIndr s
  | .otdr => Sys2Proof.Machine.execOtdr s
  | .nopEdUndefined w => Sys2Proof.Machine.execNopEdUndefined w s
  | .ldIdxNn x nn => Sys2Proof.Machine.execLdIdxNn x nn s
  | .addIdxPair x p => Sys2Proof.Machine.execAddIdxPair x p s
  | .ldAtNnIdx x nn => Sys2Proof.Machine.execLdAtNnIdx x nn s
  | .incIdx x => Sys2Proof.Machine.execIncIdx x s
  | .incHalf x hf => Sys2Proof.Machine.execIncHalf x hf s
  | .decHalf x hf => Sys2Proof.Machine.execDecHalf x hf s
  | .ldHalfN x hf n => Sys2Proof.Machine.execLdHalfN x hf n s
  | .ldIdxAtNn x nn => Sys2Proof.Machine.execLdIdxAtNn x nn s
  | .decIdx x => Sys2Proof.Machine.execDecIdx x s
  | .incAtIdx x d => Sys2Proof.Machine.execIncAtIdx x d s
  | .decAtIdx x d => Sys2Proof.Machine.execDecAtIdx x d s
  | .ldAtIdxN x d n => Sys2Proof.Machine.execLdAtIdxN x d n s
  | .ldRAtIdx x r d => Sys2Proof.Machine.execLdRAtIdx x r d s
  | .ldAtIdxR x r d => Sys2Proof.Machine.execLdAtIdxR x r d s
  | .ldRHalf x r hf => Sys2Proof.Machine.execLdRHalf x r hf s
  | .ldHalfR x hf r => Sys2Proof.Machine.execLdHalfR x hf r s
  | .addAHalf x hf => Sys2Proof.Machine.execAddAHalf x hf s
  | .addAAtIdx x d => Sys2Proof.Machine.execAddAAtIdx x d s
  | .adcAHalf x hf => Sys2Proof.Machine.execAdcAHalf x hf s
  | .adcAAtIdx x d => Sys2Proof.Machine.execAdcAAtIdx x d s
  | .subHalf x hf => Sys2Proof.Machine.execSubHalf x hf s
  | .subAtIdx x d => Sys2Proof.Machine.execSubAtIdx x d s
  | .sbcAHalf x hf => Sys2Proof.Machine.execSbcAHalf x hf s
  | .sbcAAtIdx x d => Sys2Proof.Machine.execSbcAAtIdx x d s
  | .andHalf x hf => Sys2Proof.Machine.execAndHalf x hf s
  | .andAtIdx x d => Sys2Proof.Machine.execAndAtIdx x d s
  | .xorHalf x hf => Sys2Proof.Machine.execXorHalf x hf s
  | .xorAtIdx x d => Sys2Proof.Machine.execXorAtIdx x d s
  | .orHalf x hf => Sys2Proof.Machine.execOrHalf x hf s
  | .orAtIdx x d => Sys2Proof.Machine.execOrAtIdx x d s
  | .cpHalf x hf => Sys2Proof.Machine.execCpHalf x hf s
  | .cpAtIdx x d => Sys2Proof.Machine.execCpAtIdx x d s
  | .popIdx x => Sys2Proof.Machine.execPopIdx x s
  | .exAtSpIdx x => Sys2Proof.Machine.execExAtSpIdx x s
  | .pushIdx x => Sys2Proof.Machine.execPushIdx x s
  | .jpIdx x => Sys2Proof.Machine.execJpIdx x s
  | .ldSpIdx x => Sys2Proof.Machine.execLdSpIdx x s
  | .prefixIdxCb x => Sys2Proof.Machine.execPrefixIdxCb x s
  | .indexPrefixNoEffect x w => Sys2Proof.Machine.execIndexPrefixNoEffect x w s
  | .rlcAtIdx x d => Sys2Proof.Machine.execRlcAtIdx x d s
  | .rlcAtIdxR x d r => Sys2Proof.Machine.execRlcAtIdxR x d r s
  | .rrcAtIdx x d => Sys2Proof.Machine.execRrcAtIdx x d s
  | .rrcAtIdxR x d r => Sys2Proof.Machine.execRrcAtIdxR x d r s
  | .rlAtIdx x d => Sys2Proof.Machine.execRlAtIdx x d s
  | .rlAtIdxR x d r => Sys2Proof.Machine.execRlAtIdxR x d r s
  | .rrAtIdx x d => Sys2Proof.Machine.execRrAtIdx x d s
  | .rrAtIdxR x d r => Sys2Proof.Machine.execRrAtIdxR x d r s
  | .slaAtIdx x d => Sys2Proof.Machine.execSlaAtIdx x d s
  | .slaAtIdxR x d r => Sys2Proof.Machine.execSlaAtIdxR x d r s
  | .sraAtIdx x d => Sys2Proof.Machine.execSraAtIdx x d s
  | .sraAtIdxR x d r => Sys2Proof.Machine.execSraAtIdxR x d r s
  | .sllAtIdx x d => Sys2Proof.Machine.execSllAtIdx x d s
  | .sllAtIdxR x d r => Sys2Proof.Machine.execSllAtIdxR x d r s
  | .srlAtIdx x d => Sys2Proof.Machine.execSrlAtIdx x d s
  | .srlAtIdxR x d r => Sys2Proof.Machine.execSrlAtIdxR x d r s
  | .bitAtIdx x b d => Sys2Proof.Machine.execBitAtIdx x b d s
  | .bitAtIdxMirror x b d r => Sys2Proof.Machine.execBitAtIdxMirror x b d r s
  | .resAtIdx x b d => Sys2Proof.Machine.execResAtIdx x b d s
  | .resAtIdxR x b d r => Sys2Proof.Machine.execResAtIdxR x b d r s
  | .setAtIdx x b d => Sys2Proof.Machine.execSetAtIdx x b d s
  | .setAtIdxR x b d r => Sys2Proof.Machine.execSetAtIdxR x b d r s

end Sys2Proof.Machine
end

