-- ==== Sys2Proof/Machine/Cycle.lean ====
section
/-! DEFINITION. The `EmuCycle` (R140): the interrupt test, the fetch and the execution of one instruction (R141, R150), the advance
of the counter and of the raster; and the placing of an instruction where it is fetched next. -/

namespace Sys2Proof.Machine

/-! ### One instruction (R141) -/

/-- What `step()` does once no interrupt is taken and before its fetch: `EI_DELAY <- 0; PFX <- none` (R141). -/
def State.beginInstr (s : State) : State := s.setCpu { s.cpu with eiDelay := false, pfx := .none }

/-- The state in which an instruction of `len` bytes at `PC` runs: its bytes are fetched and its M1 fetches counted (R143 to
R147). -/
def State.fetchedInstr (s : State) (len : Nat) : State :=
  (s.fetched len (m1Fetches s.bytesAtPc len)).setPfx (pfxOfFirst (s.memRead s.cpu.pc))

/-- The instruction at `PC`: fetched and run; `PFX` is `none` when the step ends (R141). -/
def State.runInstr (s : State) : Out :=
  match decode s.bytesAtPc with
  | .ok (i, len) => andThen (exec i (s.fetchedInstr len)) fun u => .next (u.setPfx .none)
  | .error _ => .refused .noInstruction

/-- A video byte at `PC`: fetched by an M1 fetch, painted, and executed as `NOP` (R150). -/
def State.runVideoByte (s : State) : Out :=
  exec .nop ((s.fetched 1 1).videoByte (s.memRead s.cpu.pc) s.cpu.pc)

/-- Is the byte at `PC` a video byte (R150)? -/
def State.atVideoByte (s : State) : Bool := isVideoByte s.cfg s.cpu.pc (s.memRead s.cpu.pc)

/-- The instruction part of `step()` (R141). -/
def State.stepInstr (s : State) : Out :=
  if s.atVideoByte then s.beginInstr.runVideoByte else s.beginInstr.runInstr

/-- `step()` of R141: a non-maskable entry, a maskable entry, or one instruction. -/
def State.stepCpu (s : State) : Out :=
  if s.ula.nmiPending then .next s.nmiEntry
  else if s.intSample then .next s.intEntry
  else s.stepInstr

/-! ### The cycle (R140) -/

/-- The start of an `EmuCycle`: the record `EV` is cleared (R140). -/
def State.beginCycle (s : State) : State := { s with ev := SyncEvent.none }

/-- The rest of an `EmuCycle` after `step()`: the counter and the raster advance by the T-states the step returned, and the last
answer is taken (R140). -/
def State.endCycle (s : State) : Out :=
  andThen ((s.counterAdvance s.cycles).syncAdvance s.cycles) fun t => .next { t with ev := { t.ev with inWindow := t.inWindow } }

/-- `EmuCycle` (R140). -/
def State.emuCycle (s : State) : Out := andThen s.beginCycle.stepCpu State.endCycle

/-! ### Before the first cycle (R641, R745, R875) -/

/-- The step taken while `DRAW` is `none`: REN's one-shot signal, then EMU's acquisition of its first buffer (R641; log entry 8).
`RENDER_READY` is tested without `LOCK`, since R641 names none, though R49 has all pool state read under it. DESIGN CHOICE (log
entry 12). -/
def State.startUp (s : State) : Out := if s.pool.renderReady then s.freshDraw else s.renOp .setReady

/-! ### Placing an instruction -/

/-- EMU with its first buffer acquired. -/
def State.started (s : State) : State :=
  match s.draw with
  | some _ => s
  | none =>
    match { s with pool := { s.pool with renderReady := true } }.freshDraw with
    | .next t => t
    | _ => s

/-- `s` about to fetch an instruction: no action due, EMU started, no interrupt due at this step, and `PC` where no byte is a video
byte. -/
def State.readyToFetch (s : State) : State :=
  let t := { s with agenda := [] }.started
  let t := { t with ula := { t.ula with nmiPending := false } }
  let t := if t.intSample then t.setCpu { t.cpu with eiDelay := true } else t
  if decide (videoThreshold t.cfg ≤ t.cpu.pc) then t.setPc (t.cpu.pc &&& 0x7FFF) else t

/-- Bytes laid at a CPU address and after it, in the storage the page table maps there, writable or not. -/
def State.pokeAt (s : State) (a : Word) : List Byte → State
  | [] => s
  | v :: vs => { s with phys := s.phys.write (s.physAddr a) v }.pokeAt (a + 1) vs

/-- The four bytes that hold a table word: the instruction's, and zeros. -/
def fetchBytes (nbits w : Nat) : List Byte := (tableWordBytes nbits w ++ [0, 0, 0, 0]).take 4

end Sys2Proof.Machine
end

