-- ==== Sys2Proof/Machine/Step.lean ====
section
/-! DEFINITION. One step of the whole block: an action of REN or HOST, the start of EMU, or one `EmuCycle` (R7, R8, R140); and the
state in which a given instruction is the next one fetched. -/

namespace Sys2Proof.Machine

/-- One step: the head of the agenda; else, before EMU's first acquisition, REN's one-shot signal or EMU's start; else one
`EmuCycle` (R7, R8; log entries 6 and 8). An action of HOST in the agenda is performed before EMU's first `EmuCycle` too, while
`DRAW` is `none`: R165 and R887 place it between two. DESIGN CHOICE (log entry 6). -/
def step (s : State) : Host.Outcome State Fault Refusal :=
  match s.agenda with
  | a :: rest => { s with agenda := rest }.act a
  | [] =>
    match s.draw with
    | some _ => s.emuCycle
    | none => s.startUp

/-- `s` with the instruction whose bits are `w` stored where `step` fetches its next instruction (log entry 8). -/
def State.withFetchWord (s : State) (nbits w : Nat) : State :=
  s.readyToFetch.pokeAt s.readyToFetch.cpu.pc (fetchBytes nbits w)

end Sys2Proof.Machine
end

