-- ==== Sys2Proof/Laws/State.lean ====
section
/-! SUPPORT. One lemma for each field of State after each named update, and for each register after a pair is written. -/

namespace Sys2Proof.Machine

/-! ### `State.took` -/

@[simp] theorem State.took_cfg (s : State) (n : Nat) : (s.took n).cfg = s.cfg := rfl
@[simp] theorem State.took_cpu (s : State) (n : Nat) : (s.took n).cpu = s.cpu := rfl
@[simp] theorem State.took_pt (s : State) (n : Nat) : (s.took n).pt = s.pt := rfl
@[simp] theorem State.took_phys (s : State) (n : Nat) : (s.took n).phys = s.phys := rfl
@[simp] theorem State.took_ts (s : State) (n : Nat) : (s.took n).ts = s.ts := rfl
@[simp] theorem State.took_frames (s : State) (n : Nat) : (s.took n).frames = s.frames := rfl
@[simp] theorem State.took_ula (s : State) (n : Nat) : (s.took n).ula = s.ula := rfl
@[simp] theorem State.took_draw (s : State) (n : Nat) : (s.took n).draw = s.draw := rfl
@[simp] theorem State.took_pool (s : State) (n : Nat) : (s.took n).pool = s.pool := rfl
@[simp] theorem State.took_pix (s : State) (n : Nat) : (s.took n).pix = s.pix := rfl
@[simp] theorem State.took_chroma (s : State) (n : Nat) : (s.took n).chroma = s.chroma := rfl
@[simp] theorem State.took_cycles (s : State) (n : Nat) : (s.took n).cycles = n := rfl
@[simp] theorem State.took_ev (s : State) (n : Nat) : (s.took n).ev = s.ev := rfl
@[simp] theorem State.took_soundLog (s : State) (n : Nat) : (s.took n).soundLog = s.soundLog := rfl
@[simp] theorem State.took_soundFlushed (s : State) (n : Nat) : (s.took n).soundFlushed = s.soundFlushed := rfl
@[simp] theorem State.took_renView (s : State) (n : Nat) : (s.took n).renView = s.renView := rfl
@[simp] theorem State.took_hostResult (s : State) (n : Nat) : (s.took n).hostResult = s.hostResult := rfl
@[simp] theorem State.took_agenda (s : State) (n : Nat) : (s.took n).agenda = s.agenda := rfl
@[simp] theorem State.took_renBetween (s : State) (n : Nat) : (s.took n).renBetween = s.renBetween := rfl
@[simp] theorem State.took_freeCount (s : State) (n : Nat) : (s.took n).freeCount = s.freeCount := rfl

/-! ### `State.drawn` -/

@[simp] theorem State.drawn_cfg (s : State) : (s.drawn).cfg = s.cfg := rfl
@[simp] theorem State.drawn_cpu (s : State) : (s.drawn).cpu = s.cpu := rfl
@[simp] theorem State.drawn_pt (s : State) : (s.drawn).pt = s.pt := rfl
@[simp] theorem State.drawn_phys (s : State) : (s.drawn).phys = s.phys := rfl
@[simp] theorem State.drawn_ts (s : State) : (s.drawn).ts = s.ts := rfl
@[simp] theorem State.drawn_frames (s : State) : (s.drawn).frames = s.frames := rfl
@[simp] theorem State.drawn_ula (s : State) : (s.drawn).ula = s.ula := rfl
@[simp] theorem State.drawn_draw (s : State) : (s.drawn).draw = s.draw := rfl
@[simp] theorem State.drawn_pool (s : State) : (s.drawn).pool = s.pool := rfl
@[simp] theorem State.drawn_pix (s : State) : (s.drawn).pix = s.pix := rfl
@[simp] theorem State.drawn_chroma (s : State) : (s.drawn).chroma = s.chroma := rfl
@[simp] theorem State.drawn_cycles (s : State) : (s.drawn).cycles = s.cycles := rfl
@[simp] theorem State.drawn_ev (s : State) : (s.drawn).ev = s.ev := rfl
@[simp] theorem State.drawn_soundLog (s : State) : (s.drawn).soundLog = s.soundLog := rfl
@[simp] theorem State.drawn_soundFlushed (s : State) : (s.drawn).soundFlushed = s.soundFlushed := rfl
@[simp] theorem State.drawn_renView (s : State) : (s.drawn).renView = s.renView := rfl
@[simp] theorem State.drawn_hostResult (s : State) : (s.drawn).hostResult = s.hostResult := rfl
@[simp] theorem State.drawn_agenda (s : State) : (s.drawn).agenda = s.agenda := rfl
@[simp] theorem State.drawn_renBetween (s : State) : (s.drawn).renBetween = s.renBetween := rfl
@[simp] theorem State.drawn_freeCount (s : State) : (s.drawn).freeCount = s.freeCount + 1 := rfl

/-! ### `State.setCpu` -/

@[simp] theorem State.setCpu_cfg (s : State) (c : Cpu) : (s.setCpu c).cfg = s.cfg := rfl
@[simp] theorem State.setCpu_cpu (s : State) (c : Cpu) : (s.setCpu c).cpu = c := rfl
@[simp] theorem State.setCpu_pt (s : State) (c : Cpu) : (s.setCpu c).pt = s.pt := rfl
@[simp] theorem State.setCpu_phys (s : State) (c : Cpu) : (s.setCpu c).phys = s.phys := rfl
@[simp] theorem State.setCpu_ts (s : State) (c : Cpu) : (s.setCpu c).ts = s.ts := rfl
@[simp] theorem State.setCpu_frames (s : State) (c : Cpu) : (s.setCpu c).frames = s.frames := rfl
@[simp] theorem State.setCpu_ula (s : State) (c : Cpu) : (s.setCpu c).ula = s.ula := rfl
@[simp] theorem State.setCpu_draw (s : State) (c : Cpu) : (s.setCpu c).draw = s.draw := rfl
@[simp] theorem State.setCpu_pool (s : State) (c : Cpu) : (s.setCpu c).pool = s.pool := rfl
@[simp] theorem State.setCpu_pix (s : State) (c : Cpu) : (s.setCpu c).pix = s.pix := rfl
@[simp] theorem State.setCpu_chroma (s : State) (c : Cpu) : (s.setCpu c).chroma = s.chroma := rfl
@[simp] theorem State.setCpu_cycles (s : State) (c : Cpu) : (s.setCpu c).cycles = s.cycles := rfl
@[simp] theorem State.setCpu_ev (s : State) (c : Cpu) : (s.setCpu c).ev = s.ev := rfl
@[simp] theorem State.setCpu_soundLog (s : State) (c : Cpu) : (s.setCpu c).soundLog = s.soundLog := rfl
@[simp] theorem State.setCpu_soundFlushed (s : State) (c : Cpu) : (s.setCpu c).soundFlushed = s.soundFlushed := rfl
@[simp] theorem State.setCpu_renView (s : State) (c : Cpu) : (s.setCpu c).renView = s.renView := rfl
@[simp] theorem State.setCpu_hostResult (s : State) (c : Cpu) : (s.setCpu c).hostResult = s.hostResult := rfl
@[simp] theorem State.setCpu_agenda (s : State) (c : Cpu) : (s.setCpu c).agenda = s.agenda := rfl
@[simp] theorem State.setCpu_renBetween (s : State) (c : Cpu) : (s.setCpu c).renBetween = s.renBetween := rfl
@[simp] theorem State.setCpu_freeCount (s : State) (c : Cpu) : (s.setCpu c).freeCount = s.freeCount := rfl

/-! ### `State.setReg` -/

@[simp] theorem State.setReg_cfg (s : State) (r : Reg8) (v : Byte) : (s.setReg r v).cfg = s.cfg := rfl
@[simp] theorem State.setReg_cpu (s : State) (r : Reg8) (v : Byte) : (s.setReg r v).cpu = s.cpu.setReg r v := rfl
@[simp] theorem State.setReg_pt (s : State) (r : Reg8) (v : Byte) : (s.setReg r v).pt = s.pt := rfl
@[simp] theorem State.setReg_phys (s : State) (r : Reg8) (v : Byte) : (s.setReg r v).phys = s.phys := rfl
@[simp] theorem State.setReg_ts (s : State) (r : Reg8) (v : Byte) : (s.setReg r v).ts = s.ts := rfl
@[simp] theorem State.setReg_frames (s : State) (r : Reg8) (v : Byte) : (s.setReg r v).frames = s.frames := rfl
@[simp] theorem State.setReg_ula (s : State) (r : Reg8) (v : Byte) : (s.setReg r v).ula = s.ula := rfl
@[simp] theorem State.setReg_draw (s : State) (r : Reg8) (v : Byte) : (s.setReg r v).draw = s.draw := rfl
@[simp] theorem State.setReg_pool (s : State) (r : Reg8) (v : Byte) : (s.setReg r v).pool = s.pool := rfl
@[simp] theorem State.setReg_pix (s : State) (r : Reg8) (v : Byte) : (s.setReg r v).pix = s.pix := rfl
@[simp] theorem State.setReg_chroma (s : State) (r : Reg8) (v : Byte) : (s.setReg r v).chroma = s.chroma := rfl
@[simp] theorem State.setReg_cycles (s : State) (r : Reg8) (v : Byte) : (s.setReg r v).cycles = s.cycles := rfl
@[simp] theorem State.setReg_ev (s : State) (r : Reg8) (v : Byte) : (s.setReg r v).ev = s.ev := rfl
@[simp] theorem State.setReg_soundLog (s : State) (r : Reg8) (v : Byte) : (s.setReg r v).soundLog = s.soundLog := rfl
@[simp] theorem State.setReg_soundFlushed (s : State) (r : Reg8) (v : Byte) : (s.setReg r v).soundFlushed = s.soundFlushed := rfl
@[simp] theorem State.setReg_renView (s : State) (r : Reg8) (v : Byte) : (s.setReg r v).renView = s.renView := rfl
@[simp] theorem State.setReg_hostResult (s : State) (r : Reg8) (v : Byte) : (s.setReg r v).hostResult = s.hostResult := rfl
@[simp] theorem State.setReg_agenda (s : State) (r : Reg8) (v : Byte) : (s.setReg r v).agenda = s.agenda := rfl
@[simp] theorem State.setReg_renBetween (s : State) (r : Reg8) (v : Byte) : (s.setReg r v).renBetween = s.renBetween := rfl
@[simp] theorem State.setReg_freeCount (s : State) (r : Reg8) (v : Byte) : (s.setReg r v).freeCount = s.freeCount := rfl

/-! ### `State.setPair` -/

@[simp] theorem State.setPair_cfg (s : State) (p : Pair) (w : Word) : (s.setPair p w).cfg = s.cfg := rfl
@[simp] theorem State.setPair_cpu (s : State) (p : Pair) (w : Word) : (s.setPair p w).cpu = s.cpu.setPair p w := rfl
@[simp] theorem State.setPair_pt (s : State) (p : Pair) (w : Word) : (s.setPair p w).pt = s.pt := rfl
@[simp] theorem State.setPair_phys (s : State) (p : Pair) (w : Word) : (s.setPair p w).phys = s.phys := rfl
@[simp] theorem State.setPair_ts (s : State) (p : Pair) (w : Word) : (s.setPair p w).ts = s.ts := rfl
@[simp] theorem State.setPair_frames (s : State) (p : Pair) (w : Word) : (s.setPair p w).frames = s.frames := rfl
@[simp] theorem State.setPair_ula (s : State) (p : Pair) (w : Word) : (s.setPair p w).ula = s.ula := rfl
@[simp] theorem State.setPair_draw (s : State) (p : Pair) (w : Word) : (s.setPair p w).draw = s.draw := rfl
@[simp] theorem State.setPair_pool (s : State) (p : Pair) (w : Word) : (s.setPair p w).pool = s.pool := rfl
@[simp] theorem State.setPair_pix (s : State) (p : Pair) (w : Word) : (s.setPair p w).pix = s.pix := rfl
@[simp] theorem State.setPair_chroma (s : State) (p : Pair) (w : Word) : (s.setPair p w).chroma = s.chroma := rfl
@[simp] theorem State.setPair_cycles (s : State) (p : Pair) (w : Word) : (s.setPair p w).cycles = s.cycles := rfl
@[simp] theorem State.setPair_ev (s : State) (p : Pair) (w : Word) : (s.setPair p w).ev = s.ev := rfl
@[simp] theorem State.setPair_soundLog (s : State) (p : Pair) (w : Word) : (s.setPair p w).soundLog = s.soundLog := rfl
@[simp] theorem State.setPair_soundFlushed (s : State) (p : Pair) (w : Word) : (s.setPair p w).soundFlushed = s.soundFlushed := rfl
@[simp] theorem State.setPair_renView (s : State) (p : Pair) (w : Word) : (s.setPair p w).renView = s.renView := rfl
@[simp] theorem State.setPair_hostResult (s : State) (p : Pair) (w : Word) : (s.setPair p w).hostResult = s.hostResult := rfl
@[simp] theorem State.setPair_agenda (s : State) (p : Pair) (w : Word) : (s.setPair p w).agenda = s.agenda := rfl
@[simp] theorem State.setPair_renBetween (s : State) (p : Pair) (w : Word) : (s.setPair p w).renBetween = s.renBetween := rfl
@[simp] theorem State.setPair_freeCount (s : State) (p : Pair) (w : Word) : (s.setPair p w).freeCount = s.freeCount := rfl

/-! ### `State.setIdx` -/

@[simp] theorem State.setIdx_cfg (s : State) (x : Idx) (w : Word) : (s.setIdx x w).cfg = s.cfg := rfl
@[simp] theorem State.setIdx_cpu (s : State) (x : Idx) (w : Word) : (s.setIdx x w).cpu = s.cpu.setIdx x w := rfl
@[simp] theorem State.setIdx_pt (s : State) (x : Idx) (w : Word) : (s.setIdx x w).pt = s.pt := rfl
@[simp] theorem State.setIdx_phys (s : State) (x : Idx) (w : Word) : (s.setIdx x w).phys = s.phys := rfl
@[simp] theorem State.setIdx_ts (s : State) (x : Idx) (w : Word) : (s.setIdx x w).ts = s.ts := rfl
@[simp] theorem State.setIdx_frames (s : State) (x : Idx) (w : Word) : (s.setIdx x w).frames = s.frames := rfl
@[simp] theorem State.setIdx_ula (s : State) (x : Idx) (w : Word) : (s.setIdx x w).ula = s.ula := rfl
@[simp] theorem State.setIdx_draw (s : State) (x : Idx) (w : Word) : (s.setIdx x w).draw = s.draw := rfl
@[simp] theorem State.setIdx_pool (s : State) (x : Idx) (w : Word) : (s.setIdx x w).pool = s.pool := rfl
@[simp] theorem State.setIdx_pix (s : State) (x : Idx) (w : Word) : (s.setIdx x w).pix = s.pix := rfl
@[simp] theorem State.setIdx_chroma (s : State) (x : Idx) (w : Word) : (s.setIdx x w).chroma = s.chroma := rfl
@[simp] theorem State.setIdx_cycles (s : State) (x : Idx) (w : Word) : (s.setIdx x w).cycles = s.cycles := rfl
@[simp] theorem State.setIdx_ev (s : State) (x : Idx) (w : Word) : (s.setIdx x w).ev = s.ev := rfl
@[simp] theorem State.setIdx_soundLog (s : State) (x : Idx) (w : Word) : (s.setIdx x w).soundLog = s.soundLog := rfl
@[simp] theorem State.setIdx_soundFlushed (s : State) (x : Idx) (w : Word) : (s.setIdx x w).soundFlushed = s.soundFlushed := rfl
@[simp] theorem State.setIdx_renView (s : State) (x : Idx) (w : Word) : (s.setIdx x w).renView = s.renView := rfl
@[simp] theorem State.setIdx_hostResult (s : State) (x : Idx) (w : Word) : (s.setIdx x w).hostResult = s.hostResult := rfl
@[simp] theorem State.setIdx_agenda (s : State) (x : Idx) (w : Word) : (s.setIdx x w).agenda = s.agenda := rfl
@[simp] theorem State.setIdx_renBetween (s : State) (x : Idx) (w : Word) : (s.setIdx x w).renBetween = s.renBetween := rfl
@[simp] theorem State.setIdx_freeCount (s : State) (x : Idx) (w : Word) : (s.setIdx x w).freeCount = s.freeCount := rfl

/-! ### `State.setHalf` -/

@[simp] theorem State.setHalf_cfg (s : State) (x : Idx) (hf : Half) (v : Byte) : (s.setHalf x hf v).cfg = s.cfg := rfl
@[simp] theorem State.setHalf_cpu (s : State) (x : Idx) (hf : Half) (v : Byte) : (s.setHalf x hf v).cpu = s.cpu.setHalf x hf v := rfl
@[simp] theorem State.setHalf_pt (s : State) (x : Idx) (hf : Half) (v : Byte) : (s.setHalf x hf v).pt = s.pt := rfl
@[simp] theorem State.setHalf_phys (s : State) (x : Idx) (hf : Half) (v : Byte) : (s.setHalf x hf v).phys = s.phys := rfl
@[simp] theorem State.setHalf_ts (s : State) (x : Idx) (hf : Half) (v : Byte) : (s.setHalf x hf v).ts = s.ts := rfl
@[simp] theorem State.setHalf_frames (s : State) (x : Idx) (hf : Half) (v : Byte) : (s.setHalf x hf v).frames = s.frames := rfl
@[simp] theorem State.setHalf_ula (s : State) (x : Idx) (hf : Half) (v : Byte) : (s.setHalf x hf v).ula = s.ula := rfl
@[simp] theorem State.setHalf_draw (s : State) (x : Idx) (hf : Half) (v : Byte) : (s.setHalf x hf v).draw = s.draw := rfl
@[simp] theorem State.setHalf_pool (s : State) (x : Idx) (hf : Half) (v : Byte) : (s.setHalf x hf v).pool = s.pool := rfl
@[simp] theorem State.setHalf_pix (s : State) (x : Idx) (hf : Half) (v : Byte) : (s.setHalf x hf v).pix = s.pix := rfl
@[simp] theorem State.setHalf_chroma (s : State) (x : Idx) (hf : Half) (v : Byte) : (s.setHalf x hf v).chroma = s.chroma := rfl
@[simp] theorem State.setHalf_cycles (s : State) (x : Idx) (hf : Half) (v : Byte) : (s.setHalf x hf v).cycles = s.cycles := rfl
@[simp] theorem State.setHalf_ev (s : State) (x : Idx) (hf : Half) (v : Byte) : (s.setHalf x hf v).ev = s.ev := rfl
@[simp] theorem State.setHalf_soundLog (s : State) (x : Idx) (hf : Half) (v : Byte) : (s.setHalf x hf v).soundLog = s.soundLog := rfl
@[simp] theorem State.setHalf_soundFlushed (s : State) (x : Idx) (hf : Half) (v : Byte) : (s.setHalf x hf v).soundFlushed = s.soundFlushed := rfl
@[simp] theorem State.setHalf_renView (s : State) (x : Idx) (hf : Half) (v : Byte) : (s.setHalf x hf v).renView = s.renView := rfl
@[simp] theorem State.setHalf_hostResult (s : State) (x : Idx) (hf : Half) (v : Byte) : (s.setHalf x hf v).hostResult = s.hostResult := rfl
@[simp] theorem State.setHalf_agenda (s : State) (x : Idx) (hf : Half) (v : Byte) : (s.setHalf x hf v).agenda = s.agenda := rfl
@[simp] theorem State.setHalf_renBetween (s : State) (x : Idx) (hf : Half) (v : Byte) : (s.setHalf x hf v).renBetween = s.renBetween := rfl
@[simp] theorem State.setHalf_freeCount (s : State) (x : Idx) (hf : Half) (v : Byte) : (s.setHalf x hf v).freeCount = s.freeCount := rfl

/-! ### `State.setF` -/

@[simp] theorem State.setF_cfg (s : State) (f : Byte) : (s.setF f).cfg = s.cfg := rfl
@[simp] theorem State.setF_cpu (s : State) (f : Byte) : (s.setF f).cpu = { s.cpu with f := f } := rfl
@[simp] theorem State.setF_pt (s : State) (f : Byte) : (s.setF f).pt = s.pt := rfl
@[simp] theorem State.setF_phys (s : State) (f : Byte) : (s.setF f).phys = s.phys := rfl
@[simp] theorem State.setF_ts (s : State) (f : Byte) : (s.setF f).ts = s.ts := rfl
@[simp] theorem State.setF_frames (s : State) (f : Byte) : (s.setF f).frames = s.frames := rfl
@[simp] theorem State.setF_ula (s : State) (f : Byte) : (s.setF f).ula = s.ula := rfl
@[simp] theorem State.setF_draw (s : State) (f : Byte) : (s.setF f).draw = s.draw := rfl
@[simp] theorem State.setF_pool (s : State) (f : Byte) : (s.setF f).pool = s.pool := rfl
@[simp] theorem State.setF_pix (s : State) (f : Byte) : (s.setF f).pix = s.pix := rfl
@[simp] theorem State.setF_chroma (s : State) (f : Byte) : (s.setF f).chroma = s.chroma := rfl
@[simp] theorem State.setF_cycles (s : State) (f : Byte) : (s.setF f).cycles = s.cycles := rfl
@[simp] theorem State.setF_ev (s : State) (f : Byte) : (s.setF f).ev = s.ev := rfl
@[simp] theorem State.setF_soundLog (s : State) (f : Byte) : (s.setF f).soundLog = s.soundLog := rfl
@[simp] theorem State.setF_soundFlushed (s : State) (f : Byte) : (s.setF f).soundFlushed = s.soundFlushed := rfl
@[simp] theorem State.setF_renView (s : State) (f : Byte) : (s.setF f).renView = s.renView := rfl
@[simp] theorem State.setF_hostResult (s : State) (f : Byte) : (s.setF f).hostResult = s.hostResult := rfl
@[simp] theorem State.setF_agenda (s : State) (f : Byte) : (s.setF f).agenda = s.agenda := rfl
@[simp] theorem State.setF_renBetween (s : State) (f : Byte) : (s.setF f).renBetween = s.renBetween := rfl
@[simp] theorem State.setF_freeCount (s : State) (f : Byte) : (s.setF f).freeCount = s.freeCount := rfl

/-! ### `State.setAF` -/

@[simp] theorem State.setAF_cfg (s : State) (a f : Byte) : (s.setAF a f).cfg = s.cfg := rfl
@[simp] theorem State.setAF_cpu (s : State) (a f : Byte) : (s.setAF a f).cpu = { s.cpu with a := a, f := f } := rfl
@[simp] theorem State.setAF_pt (s : State) (a f : Byte) : (s.setAF a f).pt = s.pt := rfl
@[simp] theorem State.setAF_phys (s : State) (a f : Byte) : (s.setAF a f).phys = s.phys := rfl
@[simp] theorem State.setAF_ts (s : State) (a f : Byte) : (s.setAF a f).ts = s.ts := rfl
@[simp] theorem State.setAF_frames (s : State) (a f : Byte) : (s.setAF a f).frames = s.frames := rfl
@[simp] theorem State.setAF_ula (s : State) (a f : Byte) : (s.setAF a f).ula = s.ula := rfl
@[simp] theorem State.setAF_draw (s : State) (a f : Byte) : (s.setAF a f).draw = s.draw := rfl
@[simp] theorem State.setAF_pool (s : State) (a f : Byte) : (s.setAF a f).pool = s.pool := rfl
@[simp] theorem State.setAF_pix (s : State) (a f : Byte) : (s.setAF a f).pix = s.pix := rfl
@[simp] theorem State.setAF_chroma (s : State) (a f : Byte) : (s.setAF a f).chroma = s.chroma := rfl
@[simp] theorem State.setAF_cycles (s : State) (a f : Byte) : (s.setAF a f).cycles = s.cycles := rfl
@[simp] theorem State.setAF_ev (s : State) (a f : Byte) : (s.setAF a f).ev = s.ev := rfl
@[simp] theorem State.setAF_soundLog (s : State) (a f : Byte) : (s.setAF a f).soundLog = s.soundLog := rfl
@[simp] theorem State.setAF_soundFlushed (s : State) (a f : Byte) : (s.setAF a f).soundFlushed = s.soundFlushed := rfl
@[simp] theorem State.setAF_renView (s : State) (a f : Byte) : (s.setAF a f).renView = s.renView := rfl
@[simp] theorem State.setAF_hostResult (s : State) (a f : Byte) : (s.setAF a f).hostResult = s.hostResult := rfl
@[simp] theorem State.setAF_agenda (s : State) (a f : Byte) : (s.setAF a f).agenda = s.agenda := rfl
@[simp] theorem State.setAF_renBetween (s : State) (a f : Byte) : (s.setAF a f).renBetween = s.renBetween := rfl
@[simp] theorem State.setAF_freeCount (s : State) (a f : Byte) : (s.setAF a f).freeCount = s.freeCount := rfl

/-! ### `State.setHl` -/

@[simp] theorem State.setHl_cfg (s : State) (w : Word) : (s.setHl w).cfg = s.cfg := rfl
@[simp] theorem State.setHl_cpu (s : State) (w : Word) : (s.setHl w).cpu = s.cpu.setHl w := rfl
@[simp] theorem State.setHl_pt (s : State) (w : Word) : (s.setHl w).pt = s.pt := rfl
@[simp] theorem State.setHl_phys (s : State) (w : Word) : (s.setHl w).phys = s.phys := rfl
@[simp] theorem State.setHl_ts (s : State) (w : Word) : (s.setHl w).ts = s.ts := rfl
@[simp] theorem State.setHl_frames (s : State) (w : Word) : (s.setHl w).frames = s.frames := rfl
@[simp] theorem State.setHl_ula (s : State) (w : Word) : (s.setHl w).ula = s.ula := rfl
@[simp] theorem State.setHl_draw (s : State) (w : Word) : (s.setHl w).draw = s.draw := rfl
@[simp] theorem State.setHl_pool (s : State) (w : Word) : (s.setHl w).pool = s.pool := rfl
@[simp] theorem State.setHl_pix (s : State) (w : Word) : (s.setHl w).pix = s.pix := rfl
@[simp] theorem State.setHl_chroma (s : State) (w : Word) : (s.setHl w).chroma = s.chroma := rfl
@[simp] theorem State.setHl_cycles (s : State) (w : Word) : (s.setHl w).cycles = s.cycles := rfl
@[simp] theorem State.setHl_ev (s : State) (w : Word) : (s.setHl w).ev = s.ev := rfl
@[simp] theorem State.setHl_soundLog (s : State) (w : Word) : (s.setHl w).soundLog = s.soundLog := rfl
@[simp] theorem State.setHl_soundFlushed (s : State) (w : Word) : (s.setHl w).soundFlushed = s.soundFlushed := rfl
@[simp] theorem State.setHl_renView (s : State) (w : Word) : (s.setHl w).renView = s.renView := rfl
@[simp] theorem State.setHl_hostResult (s : State) (w : Word) : (s.setHl w).hostResult = s.hostResult := rfl
@[simp] theorem State.setHl_agenda (s : State) (w : Word) : (s.setHl w).agenda = s.agenda := rfl
@[simp] theorem State.setHl_renBetween (s : State) (w : Word) : (s.setHl w).renBetween = s.renBetween := rfl
@[simp] theorem State.setHl_freeCount (s : State) (w : Word) : (s.setHl w).freeCount = s.freeCount := rfl

/-! ### `State.setPc` -/

@[simp] theorem State.setPc_cfg (s : State) (w : Word) : (s.setPc w).cfg = s.cfg := rfl
@[simp] theorem State.setPc_cpu (s : State) (w : Word) : (s.setPc w).cpu = { s.cpu with pc := w } := rfl
@[simp] theorem State.setPc_pt (s : State) (w : Word) : (s.setPc w).pt = s.pt := rfl
@[simp] theorem State.setPc_phys (s : State) (w : Word) : (s.setPc w).phys = s.phys := rfl
@[simp] theorem State.setPc_ts (s : State) (w : Word) : (s.setPc w).ts = s.ts := rfl
@[simp] theorem State.setPc_frames (s : State) (w : Word) : (s.setPc w).frames = s.frames := rfl
@[simp] theorem State.setPc_ula (s : State) (w : Word) : (s.setPc w).ula = s.ula := rfl
@[simp] theorem State.setPc_draw (s : State) (w : Word) : (s.setPc w).draw = s.draw := rfl
@[simp] theorem State.setPc_pool (s : State) (w : Word) : (s.setPc w).pool = s.pool := rfl
@[simp] theorem State.setPc_pix (s : State) (w : Word) : (s.setPc w).pix = s.pix := rfl
@[simp] theorem State.setPc_chroma (s : State) (w : Word) : (s.setPc w).chroma = s.chroma := rfl
@[simp] theorem State.setPc_cycles (s : State) (w : Word) : (s.setPc w).cycles = s.cycles := rfl
@[simp] theorem State.setPc_ev (s : State) (w : Word) : (s.setPc w).ev = s.ev := rfl
@[simp] theorem State.setPc_soundLog (s : State) (w : Word) : (s.setPc w).soundLog = s.soundLog := rfl
@[simp] theorem State.setPc_soundFlushed (s : State) (w : Word) : (s.setPc w).soundFlushed = s.soundFlushed := rfl
@[simp] theorem State.setPc_renView (s : State) (w : Word) : (s.setPc w).renView = s.renView := rfl
@[simp] theorem State.setPc_hostResult (s : State) (w : Word) : (s.setPc w).hostResult = s.hostResult := rfl
@[simp] theorem State.setPc_agenda (s : State) (w : Word) : (s.setPc w).agenda = s.agenda := rfl
@[simp] theorem State.setPc_renBetween (s : State) (w : Word) : (s.setPc w).renBetween = s.renBetween := rfl
@[simp] theorem State.setPc_freeCount (s : State) (w : Word) : (s.setPc w).freeCount = s.freeCount := rfl

/-! ### `State.setSp` -/

@[simp] theorem State.setSp_cfg (s : State) (w : Word) : (s.setSp w).cfg = s.cfg := rfl
@[simp] theorem State.setSp_cpu (s : State) (w : Word) : (s.setSp w).cpu = { s.cpu with sp := w } := rfl
@[simp] theorem State.setSp_pt (s : State) (w : Word) : (s.setSp w).pt = s.pt := rfl
@[simp] theorem State.setSp_phys (s : State) (w : Word) : (s.setSp w).phys = s.phys := rfl
@[simp] theorem State.setSp_ts (s : State) (w : Word) : (s.setSp w).ts = s.ts := rfl
@[simp] theorem State.setSp_frames (s : State) (w : Word) : (s.setSp w).frames = s.frames := rfl
@[simp] theorem State.setSp_ula (s : State) (w : Word) : (s.setSp w).ula = s.ula := rfl
@[simp] theorem State.setSp_draw (s : State) (w : Word) : (s.setSp w).draw = s.draw := rfl
@[simp] theorem State.setSp_pool (s : State) (w : Word) : (s.setSp w).pool = s.pool := rfl
@[simp] theorem State.setSp_pix (s : State) (w : Word) : (s.setSp w).pix = s.pix := rfl
@[simp] theorem State.setSp_chroma (s : State) (w : Word) : (s.setSp w).chroma = s.chroma := rfl
@[simp] theorem State.setSp_cycles (s : State) (w : Word) : (s.setSp w).cycles = s.cycles := rfl
@[simp] theorem State.setSp_ev (s : State) (w : Word) : (s.setSp w).ev = s.ev := rfl
@[simp] theorem State.setSp_soundLog (s : State) (w : Word) : (s.setSp w).soundLog = s.soundLog := rfl
@[simp] theorem State.setSp_soundFlushed (s : State) (w : Word) : (s.setSp w).soundFlushed = s.soundFlushed := rfl
@[simp] theorem State.setSp_renView (s : State) (w : Word) : (s.setSp w).renView = s.renView := rfl
@[simp] theorem State.setSp_hostResult (s : State) (w : Word) : (s.setSp w).hostResult = s.hostResult := rfl
@[simp] theorem State.setSp_agenda (s : State) (w : Word) : (s.setSp w).agenda = s.agenda := rfl
@[simp] theorem State.setSp_renBetween (s : State) (w : Word) : (s.setSp w).renBetween = s.renBetween := rfl
@[simp] theorem State.setSp_freeCount (s : State) (w : Word) : (s.setSp w).freeCount = s.freeCount := rfl

/-! ### `State.incR` -/

@[simp] theorem State.incR_cfg (s : State) : (s.incR).cfg = s.cfg := rfl
@[simp] theorem State.incR_cpu (s : State) : (s.incR).cpu = { s.cpu with r := incRefresh s.cpu.r } := rfl
@[simp] theorem State.incR_pt (s : State) : (s.incR).pt = s.pt := rfl
@[simp] theorem State.incR_phys (s : State) : (s.incR).phys = s.phys := rfl
@[simp] theorem State.incR_ts (s : State) : (s.incR).ts = s.ts := rfl
@[simp] theorem State.incR_frames (s : State) : (s.incR).frames = s.frames := rfl
@[simp] theorem State.incR_ula (s : State) : (s.incR).ula = s.ula := rfl
@[simp] theorem State.incR_draw (s : State) : (s.incR).draw = s.draw := rfl
@[simp] theorem State.incR_pool (s : State) : (s.incR).pool = s.pool := rfl
@[simp] theorem State.incR_pix (s : State) : (s.incR).pix = s.pix := rfl
@[simp] theorem State.incR_chroma (s : State) : (s.incR).chroma = s.chroma := rfl
@[simp] theorem State.incR_cycles (s : State) : (s.incR).cycles = s.cycles := rfl
@[simp] theorem State.incR_ev (s : State) : (s.incR).ev = s.ev := rfl
@[simp] theorem State.incR_soundLog (s : State) : (s.incR).soundLog = s.soundLog := rfl
@[simp] theorem State.incR_soundFlushed (s : State) : (s.incR).soundFlushed = s.soundFlushed := rfl
@[simp] theorem State.incR_renView (s : State) : (s.incR).renView = s.renView := rfl
@[simp] theorem State.incR_hostResult (s : State) : (s.incR).hostResult = s.hostResult := rfl
@[simp] theorem State.incR_agenda (s : State) : (s.incR).agenda = s.agenda := rfl
@[simp] theorem State.incR_renBetween (s : State) : (s.incR).renBetween = s.renBetween := rfl
@[simp] theorem State.incR_freeCount (s : State) : (s.incR).freeCount = s.freeCount := rfl

/-! ### `State.setPfx` -/

@[simp] theorem State.setPfx_cfg (s : State) (p : Pfx) : (s.setPfx p).cfg = s.cfg := rfl
@[simp] theorem State.setPfx_cpu (s : State) (p : Pfx) : (s.setPfx p).cpu = { s.cpu with pfx := p } := rfl
@[simp] theorem State.setPfx_pt (s : State) (p : Pfx) : (s.setPfx p).pt = s.pt := rfl
@[simp] theorem State.setPfx_phys (s : State) (p : Pfx) : (s.setPfx p).phys = s.phys := rfl
@[simp] theorem State.setPfx_ts (s : State) (p : Pfx) : (s.setPfx p).ts = s.ts := rfl
@[simp] theorem State.setPfx_frames (s : State) (p : Pfx) : (s.setPfx p).frames = s.frames := rfl
@[simp] theorem State.setPfx_ula (s : State) (p : Pfx) : (s.setPfx p).ula = s.ula := rfl
@[simp] theorem State.setPfx_draw (s : State) (p : Pfx) : (s.setPfx p).draw = s.draw := rfl
@[simp] theorem State.setPfx_pool (s : State) (p : Pfx) : (s.setPfx p).pool = s.pool := rfl
@[simp] theorem State.setPfx_pix (s : State) (p : Pfx) : (s.setPfx p).pix = s.pix := rfl
@[simp] theorem State.setPfx_chroma (s : State) (p : Pfx) : (s.setPfx p).chroma = s.chroma := rfl
@[simp] theorem State.setPfx_cycles (s : State) (p : Pfx) : (s.setPfx p).cycles = s.cycles := rfl
@[simp] theorem State.setPfx_ev (s : State) (p : Pfx) : (s.setPfx p).ev = s.ev := rfl
@[simp] theorem State.setPfx_soundLog (s : State) (p : Pfx) : (s.setPfx p).soundLog = s.soundLog := rfl
@[simp] theorem State.setPfx_soundFlushed (s : State) (p : Pfx) : (s.setPfx p).soundFlushed = s.soundFlushed := rfl
@[simp] theorem State.setPfx_renView (s : State) (p : Pfx) : (s.setPfx p).renView = s.renView := rfl
@[simp] theorem State.setPfx_hostResult (s : State) (p : Pfx) : (s.setPfx p).hostResult = s.hostResult := rfl
@[simp] theorem State.setPfx_agenda (s : State) (p : Pfx) : (s.setPfx p).agenda = s.agenda := rfl
@[simp] theorem State.setPfx_renBetween (s : State) (p : Pfx) : (s.setPfx p).renBetween = s.renBetween := rfl
@[simp] theorem State.setPfx_freeCount (s : State) (p : Pfx) : (s.setPfx p).freeCount = s.freeCount := rfl

/-! ### `State.setUla` -/

@[simp] theorem State.setUla_cfg (s : State) (u : Ula) : (s.setUla u).cfg = s.cfg := rfl
@[simp] theorem State.setUla_cpu (s : State) (u : Ula) : (s.setUla u).cpu = s.cpu := rfl
@[simp] theorem State.setUla_pt (s : State) (u : Ula) : (s.setUla u).pt = s.pt := rfl
@[simp] theorem State.setUla_phys (s : State) (u : Ula) : (s.setUla u).phys = s.phys := rfl
@[simp] theorem State.setUla_ts (s : State) (u : Ula) : (s.setUla u).ts = s.ts := rfl
@[simp] theorem State.setUla_frames (s : State) (u : Ula) : (s.setUla u).frames = s.frames := rfl
@[simp] theorem State.setUla_ula (s : State) (u : Ula) : (s.setUla u).ula = u := rfl
@[simp] theorem State.setUla_draw (s : State) (u : Ula) : (s.setUla u).draw = s.draw := rfl
@[simp] theorem State.setUla_pool (s : State) (u : Ula) : (s.setUla u).pool = s.pool := rfl
@[simp] theorem State.setUla_pix (s : State) (u : Ula) : (s.setUla u).pix = s.pix := rfl
@[simp] theorem State.setUla_chroma (s : State) (u : Ula) : (s.setUla u).chroma = s.chroma := rfl
@[simp] theorem State.setUla_cycles (s : State) (u : Ula) : (s.setUla u).cycles = s.cycles := rfl
@[simp] theorem State.setUla_ev (s : State) (u : Ula) : (s.setUla u).ev = s.ev := rfl
@[simp] theorem State.setUla_soundLog (s : State) (u : Ula) : (s.setUla u).soundLog = s.soundLog := rfl
@[simp] theorem State.setUla_soundFlushed (s : State) (u : Ula) : (s.setUla u).soundFlushed = s.soundFlushed := rfl
@[simp] theorem State.setUla_renView (s : State) (u : Ula) : (s.setUla u).renView = s.renView := rfl
@[simp] theorem State.setUla_hostResult (s : State) (u : Ula) : (s.setUla u).hostResult = s.hostResult := rfl
@[simp] theorem State.setUla_agenda (s : State) (u : Ula) : (s.setUla u).agenda = s.agenda := rfl
@[simp] theorem State.setUla_renBetween (s : State) (u : Ula) : (s.setUla u).renBetween = s.renBetween := rfl
@[simp] theorem State.setUla_freeCount (s : State) (u : Ula) : (s.setUla u).freeCount = s.freeCount := rfl

/-! ### `State.popped` -/

@[simp] theorem State.popped_cfg (s : State) : (s.popped).cfg = s.cfg := rfl
@[simp] theorem State.popped_cpu (s : State) : (s.popped).cpu = { s.cpu with sp := s.cpu.sp + 2 } := rfl
@[simp] theorem State.popped_pt (s : State) : (s.popped).pt = s.pt := rfl
@[simp] theorem State.popped_phys (s : State) : (s.popped).phys = s.phys := rfl
@[simp] theorem State.popped_ts (s : State) : (s.popped).ts = s.ts := rfl
@[simp] theorem State.popped_frames (s : State) : (s.popped).frames = s.frames := rfl
@[simp] theorem State.popped_ula (s : State) : (s.popped).ula = s.ula := rfl
@[simp] theorem State.popped_draw (s : State) : (s.popped).draw = s.draw := rfl
@[simp] theorem State.popped_pool (s : State) : (s.popped).pool = s.pool := rfl
@[simp] theorem State.popped_pix (s : State) : (s.popped).pix = s.pix := rfl
@[simp] theorem State.popped_chroma (s : State) : (s.popped).chroma = s.chroma := rfl
@[simp] theorem State.popped_cycles (s : State) : (s.popped).cycles = s.cycles := rfl
@[simp] theorem State.popped_ev (s : State) : (s.popped).ev = s.ev := rfl
@[simp] theorem State.popped_soundLog (s : State) : (s.popped).soundLog = s.soundLog := rfl
@[simp] theorem State.popped_soundFlushed (s : State) : (s.popped).soundFlushed = s.soundFlushed := rfl
@[simp] theorem State.popped_renView (s : State) : (s.popped).renView = s.renView := rfl
@[simp] theorem State.popped_hostResult (s : State) : (s.popped).hostResult = s.hostResult := rfl
@[simp] theorem State.popped_agenda (s : State) : (s.popped).agenda = s.agenda := rfl
@[simp] theorem State.popped_renBetween (s : State) : (s.popped).renBetween = s.renBetween := rfl
@[simp] theorem State.popped_freeCount (s : State) : (s.popped).freeCount = s.freeCount := rfl

/-! ### Register pairs -/

@[simp] theorem Cpu.setAf_a (x : Cpu) (w : Word) : (x.setAf w).a = hiByte w := rfl
@[simp] theorem Cpu.setAf_f (x : Cpu) (w : Word) : (x.setAf w).f = loByte w := rfl
@[simp] theorem Cpu.setAf_b (x : Cpu) (w : Word) : (x.setAf w).b = x.b := rfl
@[simp] theorem Cpu.setAf_c (x : Cpu) (w : Word) : (x.setAf w).c = x.c := rfl
@[simp] theorem Cpu.setAf_d (x : Cpu) (w : Word) : (x.setAf w).d = x.d := rfl
@[simp] theorem Cpu.setAf_e (x : Cpu) (w : Word) : (x.setAf w).e = x.e := rfl
@[simp] theorem Cpu.setAf_h (x : Cpu) (w : Word) : (x.setAf w).h = x.h := rfl
@[simp] theorem Cpu.setAf_l (x : Cpu) (w : Word) : (x.setAf w).l = x.l := rfl
@[simp] theorem Cpu.setAf_a2 (x : Cpu) (w : Word) : (x.setAf w).a2 = x.a2 := rfl
@[simp] theorem Cpu.setAf_f2 (x : Cpu) (w : Word) : (x.setAf w).f2 = x.f2 := rfl
@[simp] theorem Cpu.setAf_b2 (x : Cpu) (w : Word) : (x.setAf w).b2 = x.b2 := rfl
@[simp] theorem Cpu.setAf_c2 (x : Cpu) (w : Word) : (x.setAf w).c2 = x.c2 := rfl
@[simp] theorem Cpu.setAf_d2 (x : Cpu) (w : Word) : (x.setAf w).d2 = x.d2 := rfl
@[simp] theorem Cpu.setAf_e2 (x : Cpu) (w : Word) : (x.setAf w).e2 = x.e2 := rfl
@[simp] theorem Cpu.setAf_h2 (x : Cpu) (w : Word) : (x.setAf w).h2 = x.h2 := rfl
@[simp] theorem Cpu.setAf_l2 (x : Cpu) (w : Word) : (x.setAf w).l2 = x.l2 := rfl
@[simp] theorem Cpu.setAf_ix (x : Cpu) (w : Word) : (x.setAf w).ix = x.ix := rfl
@[simp] theorem Cpu.setAf_iy (x : Cpu) (w : Word) : (x.setAf w).iy = x.iy := rfl
@[simp] theorem Cpu.setAf_sp (x : Cpu) (w : Word) : (x.setAf w).sp = x.sp := rfl
@[simp] theorem Cpu.setAf_pc (x : Cpu) (w : Word) : (x.setAf w).pc = x.pc := rfl
@[simp] theorem Cpu.setAf_i (x : Cpu) (w : Word) : (x.setAf w).i = x.i := rfl
@[simp] theorem Cpu.setAf_r (x : Cpu) (w : Word) : (x.setAf w).r = x.r := rfl
@[simp] theorem Cpu.setAf_iff1 (x : Cpu) (w : Word) : (x.setAf w).iff1 = x.iff1 := rfl
@[simp] theorem Cpu.setAf_iff2 (x : Cpu) (w : Word) : (x.setAf w).iff2 = x.iff2 := rfl
@[simp] theorem Cpu.setAf_im (x : Cpu) (w : Word) : (x.setAf w).im = x.im := rfl
@[simp] theorem Cpu.setAf_pfx (x : Cpu) (w : Word) : (x.setAf w).pfx = x.pfx := rfl
@[simp] theorem Cpu.setAf_halted (x : Cpu) (w : Word) : (x.setAf w).halted = x.halted := rfl
@[simp] theorem Cpu.setAf_eiDelay (x : Cpu) (w : Word) : (x.setAf w).eiDelay = x.eiDelay := rfl

@[simp] theorem Cpu.setBc_a (x : Cpu) (w : Word) : (x.setBc w).a = x.a := rfl
@[simp] theorem Cpu.setBc_f (x : Cpu) (w : Word) : (x.setBc w).f = x.f := rfl
@[simp] theorem Cpu.setBc_b (x : Cpu) (w : Word) : (x.setBc w).b = hiByte w := rfl
@[simp] theorem Cpu.setBc_c (x : Cpu) (w : Word) : (x.setBc w).c = loByte w := rfl
@[simp] theorem Cpu.setBc_d (x : Cpu) (w : Word) : (x.setBc w).d = x.d := rfl
@[simp] theorem Cpu.setBc_e (x : Cpu) (w : Word) : (x.setBc w).e = x.e := rfl
@[simp] theorem Cpu.setBc_h (x : Cpu) (w : Word) : (x.setBc w).h = x.h := rfl
@[simp] theorem Cpu.setBc_l (x : Cpu) (w : Word) : (x.setBc w).l = x.l := rfl
@[simp] theorem Cpu.setBc_a2 (x : Cpu) (w : Word) : (x.setBc w).a2 = x.a2 := rfl
@[simp] theorem Cpu.setBc_f2 (x : Cpu) (w : Word) : (x.setBc w).f2 = x.f2 := rfl
@[simp] theorem Cpu.setBc_b2 (x : Cpu) (w : Word) : (x.setBc w).b2 = x.b2 := rfl
@[simp] theorem Cpu.setBc_c2 (x : Cpu) (w : Word) : (x.setBc w).c2 = x.c2 := rfl
@[simp] theorem Cpu.setBc_d2 (x : Cpu) (w : Word) : (x.setBc w).d2 = x.d2 := rfl
@[simp] theorem Cpu.setBc_e2 (x : Cpu) (w : Word) : (x.setBc w).e2 = x.e2 := rfl
@[simp] theorem Cpu.setBc_h2 (x : Cpu) (w : Word) : (x.setBc w).h2 = x.h2 := rfl
@[simp] theorem Cpu.setBc_l2 (x : Cpu) (w : Word) : (x.setBc w).l2 = x.l2 := rfl
@[simp] theorem Cpu.setBc_ix (x : Cpu) (w : Word) : (x.setBc w).ix = x.ix := rfl
@[simp] theorem Cpu.setBc_iy (x : Cpu) (w : Word) : (x.setBc w).iy = x.iy := rfl
@[simp] theorem Cpu.setBc_sp (x : Cpu) (w : Word) : (x.setBc w).sp = x.sp := rfl
@[simp] theorem Cpu.setBc_pc (x : Cpu) (w : Word) : (x.setBc w).pc = x.pc := rfl
@[simp] theorem Cpu.setBc_i (x : Cpu) (w : Word) : (x.setBc w).i = x.i := rfl
@[simp] theorem Cpu.setBc_r (x : Cpu) (w : Word) : (x.setBc w).r = x.r := rfl
@[simp] theorem Cpu.setBc_iff1 (x : Cpu) (w : Word) : (x.setBc w).iff1 = x.iff1 := rfl
@[simp] theorem Cpu.setBc_iff2 (x : Cpu) (w : Word) : (x.setBc w).iff2 = x.iff2 := rfl
@[simp] theorem Cpu.setBc_im (x : Cpu) (w : Word) : (x.setBc w).im = x.im := rfl
@[simp] theorem Cpu.setBc_pfx (x : Cpu) (w : Word) : (x.setBc w).pfx = x.pfx := rfl
@[simp] theorem Cpu.setBc_halted (x : Cpu) (w : Word) : (x.setBc w).halted = x.halted := rfl
@[simp] theorem Cpu.setBc_eiDelay (x : Cpu) (w : Word) : (x.setBc w).eiDelay = x.eiDelay := rfl

@[simp] theorem Cpu.setDe_a (x : Cpu) (w : Word) : (x.setDe w).a = x.a := rfl
@[simp] theorem Cpu.setDe_f (x : Cpu) (w : Word) : (x.setDe w).f = x.f := rfl
@[simp] theorem Cpu.setDe_b (x : Cpu) (w : Word) : (x.setDe w).b = x.b := rfl
@[simp] theorem Cpu.setDe_c (x : Cpu) (w : Word) : (x.setDe w).c = x.c := rfl
@[simp] theorem Cpu.setDe_d (x : Cpu) (w : Word) : (x.setDe w).d = hiByte w := rfl
@[simp] theorem Cpu.setDe_e (x : Cpu) (w : Word) : (x.setDe w).e = loByte w := rfl
@[simp] theorem Cpu.setDe_h (x : Cpu) (w : Word) : (x.setDe w).h = x.h := rfl
@[simp] theorem Cpu.setDe_l (x : Cpu) (w : Word) : (x.setDe w).l = x.l := rfl
@[simp] theorem Cpu.setDe_a2 (x : Cpu) (w : Word) : (x.setDe w).a2 = x.a2 := rfl
@[simp] theorem Cpu.setDe_f2 (x : Cpu) (w : Word) : (x.setDe w).f2 = x.f2 := rfl
@[simp] theorem Cpu.setDe_b2 (x : Cpu) (w : Word) : (x.setDe w).b2 = x.b2 := rfl
@[simp] theorem Cpu.setDe_c2 (x : Cpu) (w : Word) : (x.setDe w).c2 = x.c2 := rfl
@[simp] theorem Cpu.setDe_d2 (x : Cpu) (w : Word) : (x.setDe w).d2 = x.d2 := rfl
@[simp] theorem Cpu.setDe_e2 (x : Cpu) (w : Word) : (x.setDe w).e2 = x.e2 := rfl
@[simp] theorem Cpu.setDe_h2 (x : Cpu) (w : Word) : (x.setDe w).h2 = x.h2 := rfl
@[simp] theorem Cpu.setDe_l2 (x : Cpu) (w : Word) : (x.setDe w).l2 = x.l2 := rfl
@[simp] theorem Cpu.setDe_ix (x : Cpu) (w : Word) : (x.setDe w).ix = x.ix := rfl
@[simp] theorem Cpu.setDe_iy (x : Cpu) (w : Word) : (x.setDe w).iy = x.iy := rfl
@[simp] theorem Cpu.setDe_sp (x : Cpu) (w : Word) : (x.setDe w).sp = x.sp := rfl
@[simp] theorem Cpu.setDe_pc (x : Cpu) (w : Word) : (x.setDe w).pc = x.pc := rfl
@[simp] theorem Cpu.setDe_i (x : Cpu) (w : Word) : (x.setDe w).i = x.i := rfl
@[simp] theorem Cpu.setDe_r (x : Cpu) (w : Word) : (x.setDe w).r = x.r := rfl
@[simp] theorem Cpu.setDe_iff1 (x : Cpu) (w : Word) : (x.setDe w).iff1 = x.iff1 := rfl
@[simp] theorem Cpu.setDe_iff2 (x : Cpu) (w : Word) : (x.setDe w).iff2 = x.iff2 := rfl
@[simp] theorem Cpu.setDe_im (x : Cpu) (w : Word) : (x.setDe w).im = x.im := rfl
@[simp] theorem Cpu.setDe_pfx (x : Cpu) (w : Word) : (x.setDe w).pfx = x.pfx := rfl
@[simp] theorem Cpu.setDe_halted (x : Cpu) (w : Word) : (x.setDe w).halted = x.halted := rfl
@[simp] theorem Cpu.setDe_eiDelay (x : Cpu) (w : Word) : (x.setDe w).eiDelay = x.eiDelay := rfl

@[simp] theorem Cpu.setHl_a (x : Cpu) (w : Word) : (x.setHl w).a = x.a := rfl
@[simp] theorem Cpu.setHl_f (x : Cpu) (w : Word) : (x.setHl w).f = x.f := rfl
@[simp] theorem Cpu.setHl_b (x : Cpu) (w : Word) : (x.setHl w).b = x.b := rfl
@[simp] theorem Cpu.setHl_c (x : Cpu) (w : Word) : (x.setHl w).c = x.c := rfl
@[simp] theorem Cpu.setHl_d (x : Cpu) (w : Word) : (x.setHl w).d = x.d := rfl
@[simp] theorem Cpu.setHl_e (x : Cpu) (w : Word) : (x.setHl w).e = x.e := rfl
@[simp] theorem Cpu.setHl_h (x : Cpu) (w : Word) : (x.setHl w).h = hiByte w := rfl
@[simp] theorem Cpu.setHl_l (x : Cpu) (w : Word) : (x.setHl w).l = loByte w := rfl
@[simp] theorem Cpu.setHl_a2 (x : Cpu) (w : Word) : (x.setHl w).a2 = x.a2 := rfl
@[simp] theorem Cpu.setHl_f2 (x : Cpu) (w : Word) : (x.setHl w).f2 = x.f2 := rfl
@[simp] theorem Cpu.setHl_b2 (x : Cpu) (w : Word) : (x.setHl w).b2 = x.b2 := rfl
@[simp] theorem Cpu.setHl_c2 (x : Cpu) (w : Word) : (x.setHl w).c2 = x.c2 := rfl
@[simp] theorem Cpu.setHl_d2 (x : Cpu) (w : Word) : (x.setHl w).d2 = x.d2 := rfl
@[simp] theorem Cpu.setHl_e2 (x : Cpu) (w : Word) : (x.setHl w).e2 = x.e2 := rfl
@[simp] theorem Cpu.setHl_h2 (x : Cpu) (w : Word) : (x.setHl w).h2 = x.h2 := rfl
@[simp] theorem Cpu.setHl_l2 (x : Cpu) (w : Word) : (x.setHl w).l2 = x.l2 := rfl
@[simp] theorem Cpu.setHl_ix (x : Cpu) (w : Word) : (x.setHl w).ix = x.ix := rfl
@[simp] theorem Cpu.setHl_iy (x : Cpu) (w : Word) : (x.setHl w).iy = x.iy := rfl
@[simp] theorem Cpu.setHl_sp (x : Cpu) (w : Word) : (x.setHl w).sp = x.sp := rfl
@[simp] theorem Cpu.setHl_pc (x : Cpu) (w : Word) : (x.setHl w).pc = x.pc := rfl
@[simp] theorem Cpu.setHl_i (x : Cpu) (w : Word) : (x.setHl w).i = x.i := rfl
@[simp] theorem Cpu.setHl_r (x : Cpu) (w : Word) : (x.setHl w).r = x.r := rfl
@[simp] theorem Cpu.setHl_iff1 (x : Cpu) (w : Word) : (x.setHl w).iff1 = x.iff1 := rfl
@[simp] theorem Cpu.setHl_iff2 (x : Cpu) (w : Word) : (x.setHl w).iff2 = x.iff2 := rfl
@[simp] theorem Cpu.setHl_im (x : Cpu) (w : Word) : (x.setHl w).im = x.im := rfl
@[simp] theorem Cpu.setHl_pfx (x : Cpu) (w : Word) : (x.setHl w).pfx = x.pfx := rfl
@[simp] theorem Cpu.setHl_halted (x : Cpu) (w : Word) : (x.setHl w).halted = x.halted := rfl
@[simp] theorem Cpu.setHl_eiDelay (x : Cpu) (w : Word) : (x.setHl w).eiDelay = x.eiDelay := rfl

/-! ### Bytes and words -/

theorem getLsbD_joinBytes (h l : Byte) (i : Nat) :
    (joinBytes h l).getLsbD i = if i < 8 then l.getLsbD i else h.getLsbD (i - 8) :=
  BitVec.getLsbD_append

@[simp] theorem hiByte_joinBytes (h l : Byte) : hiByte (joinBytes h l) = h := by
  apply BitVec.eq_of_getLsbD_eq; intro i hi
  simp [hiByte, getLsbD_joinBytes, hi]

@[simp] theorem loByte_joinBytes (h l : Byte) : loByte (joinBytes h l) = l := by
  apply BitVec.eq_of_getLsbD_eq; intro i hi
  simp [loByte, getLsbD_joinBytes, hi]

@[simp] theorem joinBytes_hi_lo (w : Word) : joinBytes (hiByte w) (loByte w) = w := by
  apply BitVec.eq_of_getLsbD_eq; intro i hi
  simp only [hiByte, loByte, getLsbD_joinBytes, BitVec.getLsbD_extractLsb']
  split
  · simp [*]
  · rw [show 8 + (i - 8) = i by omega]; simp; omega

@[simp] theorem Cpu.bc_setBc (x : Cpu) (w : Word) : (x.setBc w).bc = w := by simp [Cpu.bc]

@[simp] theorem Cpu.de_setDe (x : Cpu) (w : Word) : (x.setDe w).de = w := by simp [Cpu.de]

@[simp] theorem Cpu.hl_setHl (x : Cpu) (w : Word) : (x.setHl w).hl = w := by simp [Cpu.hl]

@[simp] theorem Cpu.reg_setReg (x : Cpu) (r : Reg8) (v : Byte) : (x.setReg r v).reg r = v := by cases r <;> rfl

theorem Cpu.reg_setReg_ne (x : Cpu) {r q : Reg8} (v : Byte) (h : q ≠ r) : (x.setReg r v).reg q = x.reg q := by
  cases r <;> cases q <;> first | rfl | exact absurd rfl h

@[simp] theorem Cpu.pair_setPair (x : Cpu) (p : Pair) (w : Word) : (x.setPair p w).pair p = w := by
  cases p <;> simp [Cpu.setPair, Cpu.pair]

@[simp] theorem Cpu.idx_setIdx (c : Cpu) (x : Idx) (w : Word) : (c.setIdx x w).idx x = w := by cases x <;> rfl

@[simp] theorem Cpu.half_setHalf (c : Cpu) (x : Idx) (hf : Half) (v : Byte) : (c.setHalf x hf v).half x hf = v := by
  cases hf <;> simp [Cpu.setHalf, Cpu.half]

/-! ### Outcomes -/

@[simp] theorem andThen_next (s : State) (f : State → Out) : andThen (.next s) f = f s := rfl

@[simp] theorem andThen_fault (r : Fault) (f : State → Out) : andThen (.fault r) f = .fault r := rfl

@[simp] theorem andThen_refused (r : Refusal) (f : State → Out) : andThen (.refused r) f = .refused r := rfl

/-- Two continuations that agree on the one next state there can be. -/
theorem andThen_congr {o : Out} {f g : State → Out} (h : ∀ t, o = .next t → f t = g t) : andThen o f = andThen o g := by
  cases o with
  | next t => exact h t rfl
  | fault r => rfl
  | refused r => rfl

/-- What an `andThen` that answers a next state went through. -/
theorem andThen_eq_next {o : Out} {f : State → Out} {t : State} (h : andThen o f = .next t) :
    ∃ u, o = .next u ∧ f u = .next t := by
  cases o with
  | next u => exact ⟨u, rfl, h⟩
  | fault r => cases h
  | refused r => cases h

theorem finish_eq_next {n : Nat} {s t : State} (h : finish n s = .next t) : t = s.took n := by
  cases h; rfl

end Sys2Proof.Machine
end

