-- ==== Sys2Proof/Laws/PerInstr.lean ====
section
/-! SUPPORT. The round trip of the encoding, one lemma per constructor: the bytes the encoder writes for a well-formed instruction,
with any bytes after them, decode to that instruction and its length. A prefix row stands for bytes that end with the prefix
(R119 to R123), so for it nothing follows. -/

namespace Sys2Proof.Laws.RoundTrip

open Sys2Proof.Machine

/-- Decoding what the encoder writes gives the instruction back, with its length, whatever follows. -/
def Statement (i : Instr) : Prop :=
  ∀ rest, i.wf = true → (i.isPrefixRow = true → rest = []) → decode (encode i ++ rest) = .ok (i, (encode i).length)

/-- The eight values of a 3-bit operand. -/
theorem three_bits (b : BitVec 3) : b = 0 ∨ b = 1 ∨ b = 2 ∨ b = 3 ∨ b = 4 ∨ b = 5 ∨ b = 6 ∨ b = 7 := by
  revert b; decide

/-- A byte of the undefined row is found by no other row of the ED table (R565). -/
theorem edBlock_undefined (w : Byte) (h : isUndefinedEd w = true) : fieldX w ≠ 1 ∧ decodeEdBlock w = .nopEdUndefined w := by
  revert w; decide +kernel

/-- A byte outside Map 4 that is no index prefix has no effect under an index prefix (R566). -/
theorem noEffect_alone (x : Idx) (w : Byte) (h : (Instr.indexPrefixNoEffect x w).wf = true) :
    decodeIndex x w [] = .ok (.indexPrefixNoEffect x w, 2) := by
  revert w; cases x <;> decide +kernel

/-! ### The constructors -/

theorem nop : Statement .nop := by
  intro rest _ _
  cases rest <;>
  rfl

theorem ldPairNn (p : Pair) (nn : Word) : Statement (.ldPairNn p nn) := by
  intro rest _ _
  cases p <;>
  exact congrArg (fun w => Except.ok (Instr.ldPairNn _ w, _)) (joinBytes_hi_lo nn)

theorem ldAtBcA : Statement .ldAtBcA := by
  intro rest _ _
  cases rest <;>
  rfl

theorem incPair (p : Pair) : Statement (.incPair p) := by
  intro rest _ _
  cases p <;>
  cases rest <;>
  rfl

theorem incR (r : Reg8) : Statement (.incR r) := by
  intro rest _ _
  cases r <;>
  cases rest <;>
  rfl

theorem decR (r : Reg8) : Statement (.decR r) := by
  intro rest _ _
  cases r <;>
  cases rest <;>
  rfl

theorem ldRN (r : Reg8) (n : Byte) : Statement (.ldRN r n) := by
  intro rest _ _
  cases r <;>
  rfl

theorem rlca : Statement .rlca := by
  intro rest _ _
  cases rest <;>
  rfl

theorem exAfAf : Statement .exAfAf := by
  intro rest _ _
  cases rest <;>
  rfl

theorem addHlPair (p : Pair) : Statement (.addHlPair p) := by
  intro rest _ _
  cases p <;>
  cases rest <;>
  rfl

theorem ldAAtBc : Statement .ldAAtBc := by
  intro rest _ _
  cases rest <;>
  rfl

theorem decPair (p : Pair) : Statement (.decPair p) := by
  intro rest _ _
  cases p <;>
  cases rest <;>
  rfl

theorem rrca : Statement .rrca := by
  intro rest _ _
  cases rest <;>
  rfl

theorem djnz (e : Byte) : Statement (.djnz e) := by
  intro rest _ _
  rfl

theorem ldAtDeA : Statement .ldAtDeA := by
  intro rest _ _
  cases rest <;>
  rfl

theorem rla : Statement .rla := by
  intro rest _ _
  cases rest <;>
  rfl

theorem jr (e : Byte) : Statement (.jr e) := by
  intro rest _ _
  rfl

theorem ldAAtDe : Statement .ldAAtDe := by
  intro rest _ _
  cases rest <;>
  rfl

theorem rra : Statement .rra := by
  intro rest _ _
  cases rest <;>
  rfl

theorem jrNz (e : Byte) : Statement (.jrNz e) := by
  intro rest _ _
  rfl

theorem ldAtNnHl (nn : Word) : Statement (.ldAtNnHl nn) := by
  intro rest _ _
  exact congrArg (fun w => Except.ok (Instr.ldAtNnHl w, _)) (joinBytes_hi_lo nn)

theorem daa : Statement .daa := by
  intro rest _ _
  cases rest <;>
  rfl

theorem jrZ (e : Byte) : Statement (.jrZ e) := by
  intro rest _ _
  rfl

theorem ldHlAtNn (nn : Word) : Statement (.ldHlAtNn nn) := by
  intro rest _ _
  exact congrArg (fun w => Except.ok (Instr.ldHlAtNn w, _)) (joinBytes_hi_lo nn)

theorem cpl : Statement .cpl := by
  intro rest _ _
  cases rest <;>
  rfl

theorem jrNc (e : Byte) : Statement (.jrNc e) := by
  intro rest _ _
  rfl

theorem ldAtNnA (nn : Word) : Statement (.ldAtNnA nn) := by
  intro rest _ _
  exact congrArg (fun w => Except.ok (Instr.ldAtNnA w, _)) (joinBytes_hi_lo nn)

theorem incAtHl : Statement .incAtHl := by
  intro rest _ _
  cases rest <;>
  rfl

theorem decAtHl : Statement .decAtHl := by
  intro rest _ _
  cases rest <;>
  rfl

theorem ldAtHlN (n : Byte) : Statement (.ldAtHlN n) := by
  intro rest _ _
  rfl

theorem scf : Statement .scf := by
  intro rest _ _
  cases rest <;>
  rfl

theorem jrC (e : Byte) : Statement (.jrC e) := by
  intro rest _ _
  rfl

theorem ldAAtNn (nn : Word) : Statement (.ldAAtNn nn) := by
  intro rest _ _
  exact congrArg (fun w => Except.ok (Instr.ldAAtNn w, _)) (joinBytes_hi_lo nn)

theorem ccf : Statement .ccf := by
  intro rest _ _
  cases rest <;>
  rfl

theorem ldRR (r : Reg8) (r2 : Reg8) : Statement (.ldRR r r2) := by
  intro rest _ _
  cases r <;>
  cases r2 <;>
  cases rest <;>
  rfl

theorem ldRAtHl (r : Reg8) : Statement (.ldRAtHl r) := by
  intro rest _ _
  cases r <;>
  cases rest <;>
  rfl

theorem ldAtHlR (r : Reg8) : Statement (.ldAtHlR r) := by
  intro rest _ _
  cases r <;>
  cases rest <;>
  rfl

theorem halt : Statement .halt := by
  intro rest _ _
  cases rest <;>
  rfl

theorem addAR (r : Reg8) : Statement (.addAR r) := by
  intro rest _ _
  cases r <;>
  cases rest <;>
  rfl

theorem addAAtHl : Statement .addAAtHl := by
  intro rest _ _
  cases rest <;>
  rfl

theorem addAN (n : Byte) : Statement (.addAN n) := by
  intro rest _ _
  rfl

theorem adcAR (r : Reg8) : Statement (.adcAR r) := by
  intro rest _ _
  cases r <;>
  cases rest <;>
  rfl

theorem adcAAtHl : Statement .adcAAtHl := by
  intro rest _ _
  cases rest <;>
  rfl

theorem adcAN (n : Byte) : Statement (.adcAN n) := by
  intro rest _ _
  rfl

theorem subR (r : Reg8) : Statement (.subR r) := by
  intro rest _ _
  cases r <;>
  cases rest <;>
  rfl

theorem subAtHl : Statement .subAtHl := by
  intro rest _ _
  cases rest <;>
  rfl

theorem subN (n : Byte) : Statement (.subN n) := by
  intro rest _ _
  rfl

theorem sbcAR (r : Reg8) : Statement (.sbcAR r) := by
  intro rest _ _
  cases r <;>
  cases rest <;>
  rfl

theorem sbcAAtHl : Statement .sbcAAtHl := by
  intro rest _ _
  cases rest <;>
  rfl

theorem sbcAN (n : Byte) : Statement (.sbcAN n) := by
  intro rest _ _
  rfl

theorem andR (r : Reg8) : Statement (.andR r) := by
  intro rest _ _
  cases r <;>
  cases rest <;>
  rfl

theorem andAtHl : Statement .andAtHl := by
  intro rest _ _
  cases rest <;>
  rfl

theorem andN (n : Byte) : Statement (.andN n) := by
  intro rest _ _
  rfl

theorem xorR (r : Reg8) : Statement (.xorR r) := by
  intro rest _ _
  cases r <;>
  cases rest <;>
  rfl

theorem xorAtHl : Statement .xorAtHl := by
  intro rest _ _
  cases rest <;>
  rfl

theorem xorN (n : Byte) : Statement (.xorN n) := by
  intro rest _ _
  rfl

theorem orR (r : Reg8) : Statement (.orR r) := by
  intro rest _ _
  cases r <;>
  cases rest <;>
  rfl

theorem orAtHl : Statement .orAtHl := by
  intro rest _ _
  cases rest <;>
  rfl

theorem orN (n : Byte) : Statement (.orN n) := by
  intro rest _ _
  rfl

theorem cpR (r : Reg8) : Statement (.cpR r) := by
  intro rest _ _
  cases r <;>
  cases rest <;>
  rfl

theorem cpAtHl : Statement .cpAtHl := by
  intro rest _ _
  cases rest <;>
  rfl

theorem cpN (n : Byte) : Statement (.cpN n) := by
  intro rest _ _
  rfl

theorem retCc (cc : Cond) : Statement (.retCc cc) := by
  intro rest _ _
  cases cc <;>
  cases rest <;>
  rfl

theorem popPair (q : StackPair) : Statement (.popPair q) := by
  intro rest _ _
  cases q <;>
  cases rest <;>
  rfl

theorem jpCcNn (cc : Cond) (nn : Word) : Statement (.jpCcNn cc nn) := by
  intro rest _ _
  cases cc <;>
  exact congrArg (fun w => Except.ok (Instr.jpCcNn _ w, _)) (joinBytes_hi_lo nn)

theorem jpNn (nn : Word) : Statement (.jpNn nn) := by
  intro rest _ _
  exact congrArg (fun w => Except.ok (Instr.jpNn w, _)) (joinBytes_hi_lo nn)

theorem outNA (n : Byte) : Statement (.outNA n) := by
  intro rest _ _
  rfl

theorem exAtSpHl : Statement .exAtSpHl := by
  intro rest _ _
  cases rest <;>
  rfl

theorem di : Statement .di := by
  intro rest _ _
  cases rest <;>
  rfl

theorem callCcNn (cc : Cond) (nn : Word) : Statement (.callCcNn cc nn) := by
  intro rest _ _
  cases cc <;>
  exact congrArg (fun w => Except.ok (Instr.callCcNn _ w, _)) (joinBytes_hi_lo nn)

theorem pushPair (q : StackPair) : Statement (.pushPair q) := by
  intro rest _ _
  cases q <;>
  cases rest <;>
  rfl

theorem rst (t : BitVec 3) : Statement (.rst t) := by
  intro rest _ _
  obtain rfl | rfl | rfl | rfl | rfl | rfl | rfl | rfl := three_bits t <;>
  cases rest <;>
  rfl

theorem ret : Statement .ret := by
  intro rest _ _
  cases rest <;>
  rfl

theorem exx : Statement .exx := by
  intro rest _ _
  cases rest <;>
  rfl

theorem jpHl : Statement .jpHl := by
  intro rest _ _
  cases rest <;>
  rfl

theorem ldSpHl : Statement .ldSpHl := by
  intro rest _ _
  cases rest <;>
  rfl

theorem prefixCb : Statement .prefixCb := by
  intro rest _ hr; rw [hr rfl]; rfl

theorem inAN (n : Byte) : Statement (.inAN n) := by
  intro rest _ _
  rfl

theorem exDeHl : Statement .exDeHl := by
  intro rest _ _
  cases rest <;>
  rfl

theorem ei : Statement .ei := by
  intro rest _ _
  cases rest <;>
  rfl

theorem callNn (nn : Word) : Statement (.callNn nn) := by
  intro rest _ _
  exact congrArg (fun w => Except.ok (Instr.callNn w, _)) (joinBytes_hi_lo nn)

theorem prefixDd : Statement .prefixDd := by
  intro rest _ hr; rw [hr rfl]; rfl

theorem prefixEd : Statement .prefixEd := by
  intro rest _ hr; rw [hr rfl]; rfl

theorem prefixFd : Statement .prefixFd := by
  intro rest _ hr; rw [hr rfl]; rfl

theorem rlcR (r : Reg8) : Statement (.rlcR r) := by
  intro rest _ _
  cases r <;>
  rfl

theorem rlcAtHl : Statement .rlcAtHl := by
  intro rest _ _
  rfl

theorem rrcR (r : Reg8) : Statement (.rrcR r) := by
  intro rest _ _
  cases r <;>
  rfl

theorem rrcAtHl : Statement .rrcAtHl := by
  intro rest _ _
  rfl

theorem rlR (r : Reg8) : Statement (.rlR r) := by
  intro rest _ _
  cases r <;>
  rfl

theorem rlAtHl : Statement .rlAtHl := by
  intro rest _ _
  rfl

theorem rrR (r : Reg8) : Statement (.rrR r) := by
  intro rest _ _
  cases r <;>
  rfl

theorem rrAtHl : Statement .rrAtHl := by
  intro rest _ _
  rfl

theorem slaR (r : Reg8) : Statement (.slaR r) := by
  intro rest _ _
  cases r <;>
  rfl

theorem slaAtHl : Statement .slaAtHl := by
  intro rest _ _
  rfl

theorem sraR (r : Reg8) : Statement (.sraR r) := by
  intro rest _ _
  cases r <;>
  rfl

theorem sraAtHl : Statement .sraAtHl := by
  intro rest _ _
  rfl

theorem sllR (r : Reg8) : Statement (.sllR r) := by
  intro rest _ _
  cases r <;>
  rfl

theorem sllAtHl : Statement .sllAtHl := by
  intro rest _ _
  rfl

theorem srlR (r : Reg8) : Statement (.srlR r) := by
  intro rest _ _
  cases r <;>
  rfl

theorem srlAtHl : Statement .srlAtHl := by
  intro rest _ _
  rfl

theorem bitR (b : BitVec 3) (r : Reg8) : Statement (.bitR b r) := by
  intro rest _ _
  obtain rfl | rfl | rfl | rfl | rfl | rfl | rfl | rfl := three_bits b <;>
  cases r <;>
  rfl

theorem bitAtHl (b : BitVec 3) : Statement (.bitAtHl b) := by
  intro rest _ _
  obtain rfl | rfl | rfl | rfl | rfl | rfl | rfl | rfl := three_bits b <;>
  rfl

theorem resR (b : BitVec 3) (r : Reg8) : Statement (.resR b r) := by
  intro rest _ _
  obtain rfl | rfl | rfl | rfl | rfl | rfl | rfl | rfl := three_bits b <;>
  cases r <;>
  rfl

theorem resAtHl (b : BitVec 3) : Statement (.resAtHl b) := by
  intro rest _ _
  obtain rfl | rfl | rfl | rfl | rfl | rfl | rfl | rfl := three_bits b <;>
  rfl

theorem setR (b : BitVec 3) (r : Reg8) : Statement (.setR b r) := by
  intro rest _ _
  obtain rfl | rfl | rfl | rfl | rfl | rfl | rfl | rfl := three_bits b <;>
  cases r <;>
  rfl

theorem setAtHl (b : BitVec 3) : Statement (.setAtHl b) := by
  intro rest _ _
  obtain rfl | rfl | rfl | rfl | rfl | rfl | rfl | rfl := three_bits b <;>
  rfl

theorem inRC (r : Reg8) : Statement (.inRC r) := by
  intro rest _ _
  cases r <;>
  rfl

theorem inFC : Statement .inFC := by
  intro rest _ _
  rfl

theorem outCR (r : Reg8) : Statement (.outCR r) := by
  intro rest _ _
  cases r <;>
  rfl

theorem outC0 : Statement .outC0 := by
  intro rest _ _
  rfl

theorem sbcHlPair (p : Pair) : Statement (.sbcHlPair p) := by
  intro rest _ _
  cases p <;>
  rfl

theorem adcHlPair (p : Pair) : Statement (.adcHlPair p) := by
  intro rest _ _
  cases p <;>
  rfl

theorem ldAtNnPair (p : Pair) (nn : Word) : Statement (.ldAtNnPair p nn) := by
  intro rest _ _
  cases p <;>
  exact congrArg (fun w => Except.ok (Instr.ldAtNnPair _ w, _)) (joinBytes_hi_lo nn)

theorem ldPairAtNn (p : Pair) (nn : Word) : Statement (.ldPairAtNn p nn) := by
  intro rest _ _
  cases p <;>
  exact congrArg (fun w => Except.ok (Instr.ldPairAtNn _ w, _)) (joinBytes_hi_lo nn)

theorem neg : Statement .neg := by
  intro rest _ _
  rfl

theorem negMirror (v : BitVec 3) : Statement (.negMirror v) := by
  intro rest hw _
  obtain rfl | rfl | rfl | rfl | rfl | rfl | rfl | rfl := three_bits v <;>
  first | rfl | cases hw

theorem retn : Statement .retn := by
  intro rest _ _
  rfl

theorem reti : Statement .reti := by
  intro rest _ _
  rfl

theorem retnMirror (v : BitVec 3) : Statement (.retnMirror v) := by
  intro rest hw _
  obtain rfl | rfl | rfl | rfl | rfl | rfl | rfl | rfl := three_bits v <;>
  first | rfl | cases hw

theorem im0 : Statement .im0 := by
  intro rest _ _
  rfl

theorem im1 : Statement .im1 := by
  intro rest _ _
  rfl

theorem im2 : Statement .im2 := by
  intro rest _ _
  rfl

theorem im0Mirror4E : Statement .im0Mirror4E := by
  intro rest _ _
  rfl

theorem im0Mirror66 : Statement .im0Mirror66 := by
  intro rest _ _
  rfl

theorem im0Mirror6E : Statement .im0Mirror6E := by
  intro rest _ _
  rfl

theorem im1Mirror : Statement .im1Mirror := by
  intro rest _ _
  rfl

theorem im2Mirror : Statement .im2Mirror := by
  intro rest _ _
  rfl

theorem ldIA : Statement .ldIA := by
  intro rest _ _
  rfl

theorem ldRefreshA : Statement .ldRefreshA := by
  intro rest _ _
  rfl

theorem ldAI : Statement .ldAI := by
  intro rest _ _
  rfl

theorem ldARefresh : Statement .ldARefresh := by
  intro rest _ _
  rfl

theorem rrd : Statement .rrd := by
  intro rest _ _
  rfl

theorem rld : Statement .rld := by
  intro rest _ _
  rfl

theorem nopEd77 : Statement .nopEd77 := by
  intro rest _ _
  rfl

theorem nopEd7F : Statement .nopEd7F := by
  intro rest _ _
  rfl

theorem ldi : Statement .ldi := by
  intro rest _ _
  rfl

theorem cpi : Statement .cpi := by
  intro rest _ _
  rfl

theorem ini : Statement .ini := by
  intro rest _ _
  rfl

theorem outi : Statement .outi := by
  intro rest _ _
  rfl

theorem ldd : Statement .ldd := by
  intro rest _ _
  rfl

theorem cpd : Statement .cpd := by
  intro rest _ _
  rfl

theorem ind : Statement .ind := by
  intro rest _ _
  rfl

theorem outd : Statement .outd := by
  intro rest _ _
  rfl

theorem ldir : Statement .ldir := by
  intro rest _ _
  rfl

theorem cpir : Statement .cpir := by
  intro rest _ _
  rfl

theorem inir : Statement .inir := by
  intro rest _ _
  rfl

theorem otir : Statement .otir := by
  intro rest _ _
  rfl

theorem lddr : Statement .lddr := by
  intro rest _ _
  rfl

theorem cpdr : Statement .cpdr := by
  intro rest _ _
  rfl

theorem indr : Statement .indr := by
  intro rest _ _
  rfl

theorem otdr : Statement .otdr := by
  intro rest _ _
  rfl

theorem nopEdUndefined (w : Byte) : Statement (.nopEdUndefined w) := by
  intro rest hw _
  have h := edBlock_undefined w hw
  show decodeEd w rest = _
  rw [decodeEd, if_neg h.1, h.2]; rfl

theorem ldIdxNn (x : Idx) (nn : Word) : Statement (.ldIdxNn x nn) := by
  intro rest _ _
  cases x <;>
  exact congrArg (fun w => Except.ok (Instr.ldIdxNn _ w, _)) (joinBytes_hi_lo nn)

theorem addIdxPair (x : Idx) (p : IdxPair) : Statement (.addIdxPair x p) := by
  intro rest _ _
  cases x <;>
  cases p <;>
  rfl

theorem ldAtNnIdx (x : Idx) (nn : Word) : Statement (.ldAtNnIdx x nn) := by
  intro rest _ _
  cases x <;>
  exact congrArg (fun w => Except.ok (Instr.ldAtNnIdx _ w, _)) (joinBytes_hi_lo nn)

theorem incIdx (x : Idx) : Statement (.incIdx x) := by
  intro rest _ _
  cases x <;>
  rfl

theorem incHalf (x : Idx) (hf : Half) : Statement (.incHalf x hf) := by
  intro rest _ _
  cases x <;>
  cases hf <;>
  rfl

theorem decHalf (x : Idx) (hf : Half) : Statement (.decHalf x hf) := by
  intro rest _ _
  cases x <;>
  cases hf <;>
  rfl

theorem ldHalfN (x : Idx) (hf : Half) (n : Byte) : Statement (.ldHalfN x hf n) := by
  intro rest _ _
  cases x <;>
  cases hf <;>
  rfl

theorem ldIdxAtNn (x : Idx) (nn : Word) : Statement (.ldIdxAtNn x nn) := by
  intro rest _ _
  cases x <;>
  exact congrArg (fun w => Except.ok (Instr.ldIdxAtNn _ w, _)) (joinBytes_hi_lo nn)

theorem decIdx (x : Idx) : Statement (.decIdx x) := by
  intro rest _ _
  cases x <;>
  rfl

theorem incAtIdx (x : Idx) (d : Byte) : Statement (.incAtIdx x d) := by
  intro rest _ _
  cases x <;>
  rfl

theorem decAtIdx (x : Idx) (d : Byte) : Statement (.decAtIdx x d) := by
  intro rest _ _
  cases x <;>
  rfl

theorem ldAtIdxN (x : Idx) (d : Byte) (n : Byte) : Statement (.ldAtIdxN x d n) := by
  intro rest _ _
  cases x <;>
  rfl

theorem ldRAtIdx (x : Idx) (r : Reg8) (d : Byte) : Statement (.ldRAtIdx x r d) := by
  intro rest _ _
  cases x <;>
  cases r <;>
  rfl

theorem ldAtIdxR (x : Idx) (r : Reg8) (d : Byte) : Statement (.ldAtIdxR x r d) := by
  intro rest _ _
  cases x <;>
  cases r <;>
  rfl

theorem ldRHalf (x : Idx) (r : Reg8) (hf : Half) : Statement (.ldRHalf x r hf) := by
  intro rest _ _
  cases x <;>
  cases r <;>
  cases hf <;>
  rfl

theorem ldHalfR (x : Idx) (hf : Half) (r : Reg8) : Statement (.ldHalfR x hf r) := by
  intro rest hw _
  cases x <;>
  cases hf <;>
  cases r <;>
  first | rfl | cases hw

theorem addAHalf (x : Idx) (hf : Half) : Statement (.addAHalf x hf) := by
  intro rest _ _
  cases x <;>
  cases hf <;>
  rfl

theorem addAAtIdx (x : Idx) (d : Byte) : Statement (.addAAtIdx x d) := by
  intro rest _ _
  cases x <;>
  rfl

theorem adcAHalf (x : Idx) (hf : Half) : Statement (.adcAHalf x hf) := by
  intro rest _ _
  cases x <;>
  cases hf <;>
  rfl

theorem adcAAtIdx (x : Idx) (d : Byte) : Statement (.adcAAtIdx x d) := by
  intro rest _ _
  cases x <;>
  rfl

theorem subHalf (x : Idx) (hf : Half) : Statement (.subHalf x hf) := by
  intro rest _ _
  cases x <;>
  cases hf <;>
  rfl

theorem subAtIdx (x : Idx) (d : Byte) : Statement (.subAtIdx x d) := by
  intro rest _ _
  cases x <;>
  rfl

theorem sbcAHalf (x : Idx) (hf : Half) : Statement (.sbcAHalf x hf) := by
  intro rest _ _
  cases x <;>
  cases hf <;>
  rfl

theorem sbcAAtIdx (x : Idx) (d : Byte) : Statement (.sbcAAtIdx x d) := by
  intro rest _ _
  cases x <;>
  rfl

theorem andHalf (x : Idx) (hf : Half) : Statement (.andHalf x hf) := by
  intro rest _ _
  cases x <;>
  cases hf <;>
  rfl

theorem andAtIdx (x : Idx) (d : Byte) : Statement (.andAtIdx x d) := by
  intro rest _ _
  cases x <;>
  rfl

theorem xorHalf (x : Idx) (hf : Half) : Statement (.xorHalf x hf) := by
  intro rest _ _
  cases x <;>
  cases hf <;>
  rfl

theorem xorAtIdx (x : Idx) (d : Byte) : Statement (.xorAtIdx x d) := by
  intro rest _ _
  cases x <;>
  rfl

theorem orHalf (x : Idx) (hf : Half) : Statement (.orHalf x hf) := by
  intro rest _ _
  cases x <;>
  cases hf <;>
  rfl

theorem orAtIdx (x : Idx) (d : Byte) : Statement (.orAtIdx x d) := by
  intro rest _ _
  cases x <;>
  rfl

theorem cpHalf (x : Idx) (hf : Half) : Statement (.cpHalf x hf) := by
  intro rest _ _
  cases x <;>
  cases hf <;>
  rfl

theorem cpAtIdx (x : Idx) (d : Byte) : Statement (.cpAtIdx x d) := by
  intro rest _ _
  cases x <;>
  rfl

theorem popIdx (x : Idx) : Statement (.popIdx x) := by
  intro rest _ _
  cases x <;>
  rfl

theorem exAtSpIdx (x : Idx) : Statement (.exAtSpIdx x) := by
  intro rest _ _
  cases x <;>
  rfl

theorem pushIdx (x : Idx) : Statement (.pushIdx x) := by
  intro rest _ _
  cases x <;>
  rfl

theorem jpIdx (x : Idx) : Statement (.jpIdx x) := by
  intro rest _ _
  cases x <;>
  rfl

theorem ldSpIdx (x : Idx) : Statement (.ldSpIdx x) := by
  intro rest _ _
  cases x <;>
  rfl

theorem prefixIdxCb (x : Idx) : Statement (.prefixIdxCb x) := by
  intro rest _ hr; rw [hr rfl]; cases x <;> rfl

theorem indexPrefixNoEffect (x : Idx) (w : Byte) : Statement (.indexPrefixNoEffect x w) := by
  intro rest hw hr
  rw [hr rfl]
  have h := noEffect_alone x w hw
  cases x <;> exact h

theorem rlcAtIdx (x : Idx) (d : Byte) : Statement (.rlcAtIdx x d) := by
  intro rest _ _
  cases x <;>
  rfl

theorem rlcAtIdxR (x : Idx) (d : Byte) (r : Reg8) : Statement (.rlcAtIdxR x d r) := by
  intro rest _ _
  cases x <;>
  cases r <;>
  rfl

theorem rrcAtIdx (x : Idx) (d : Byte) : Statement (.rrcAtIdx x d) := by
  intro rest _ _
  cases x <;>
  rfl

theorem rrcAtIdxR (x : Idx) (d : Byte) (r : Reg8) : Statement (.rrcAtIdxR x d r) := by
  intro rest _ _
  cases x <;>
  cases r <;>
  rfl

theorem rlAtIdx (x : Idx) (d : Byte) : Statement (.rlAtIdx x d) := by
  intro rest _ _
  cases x <;>
  rfl

theorem rlAtIdxR (x : Idx) (d : Byte) (r : Reg8) : Statement (.rlAtIdxR x d r) := by
  intro rest _ _
  cases x <;>
  cases r <;>
  rfl

theorem rrAtIdx (x : Idx) (d : Byte) : Statement (.rrAtIdx x d) := by
  intro rest _ _
  cases x <;>
  rfl

theorem rrAtIdxR (x : Idx) (d : Byte) (r : Reg8) : Statement (.rrAtIdxR x d r) := by
  intro rest _ _
  cases x <;>
  cases r <;>
  rfl

theorem slaAtIdx (x : Idx) (d : Byte) : Statement (.slaAtIdx x d) := by
  intro rest _ _
  cases x <;>
  rfl

theorem slaAtIdxR (x : Idx) (d : Byte) (r : Reg8) : Statement (.slaAtIdxR x d r) := by
  intro rest _ _
  cases x <;>
  cases r <;>
  rfl

theorem sraAtIdx (x : Idx) (d : Byte) : Statement (.sraAtIdx x d) := by
  intro rest _ _
  cases x <;>
  rfl

theorem sraAtIdxR (x : Idx) (d : Byte) (r : Reg8) : Statement (.sraAtIdxR x d r) := by
  intro rest _ _
  cases x <;>
  cases r <;>
  rfl

theorem sllAtIdx (x : Idx) (d : Byte) : Statement (.sllAtIdx x d) := by
  intro rest _ _
  cases x <;>
  rfl

theorem sllAtIdxR (x : Idx) (d : Byte) (r : Reg8) : Statement (.sllAtIdxR x d r) := by
  intro rest _ _
  cases x <;>
  cases r <;>
  rfl

theorem srlAtIdx (x : Idx) (d : Byte) : Statement (.srlAtIdx x d) := by
  intro rest _ _
  cases x <;>
  rfl

theorem srlAtIdxR (x : Idx) (d : Byte) (r : Reg8) : Statement (.srlAtIdxR x d r) := by
  intro rest _ _
  cases x <;>
  cases r <;>
  rfl

theorem bitAtIdx (x : Idx) (b : BitVec 3) (d : Byte) : Statement (.bitAtIdx x b d) := by
  intro rest _ _
  obtain rfl | rfl | rfl | rfl | rfl | rfl | rfl | rfl := three_bits b <;>
  cases x <;>
  rfl

theorem bitAtIdxMirror (x : Idx) (b : BitVec 3) (d : Byte) (r : Reg8) : Statement (.bitAtIdxMirror x b d r) := by
  intro rest _ _
  obtain rfl | rfl | rfl | rfl | rfl | rfl | rfl | rfl := three_bits b <;>
  cases x <;>
  cases r <;>
  rfl

theorem resAtIdx (x : Idx) (b : BitVec 3) (d : Byte) : Statement (.resAtIdx x b d) := by
  intro rest _ _
  obtain rfl | rfl | rfl | rfl | rfl | rfl | rfl | rfl := three_bits b <;>
  cases x <;>
  rfl

theorem resAtIdxR (x : Idx) (b : BitVec 3) (d : Byte) (r : Reg8) : Statement (.resAtIdxR x b d r) := by
  intro rest _ _
  obtain rfl | rfl | rfl | rfl | rfl | rfl | rfl | rfl := three_bits b <;>
  cases x <;>
  cases r <;>
  rfl

theorem setAtIdx (x : Idx) (b : BitVec 3) (d : Byte) : Statement (.setAtIdx x b d) := by
  intro rest _ _
  obtain rfl | rfl | rfl | rfl | rfl | rfl | rfl | rfl := three_bits b <;>
  cases x <;>
  rfl

theorem setAtIdxR (x : Idx) (b : BitVec 3) (d : Byte) (r : Reg8) : Statement (.setAtIdxR x b d r) := by
  intro rest _ _
  obtain rfl | rfl | rfl | rfl | rfl | rfl | rfl | rfl := three_bits b <;>
  cases x <;>
  cases r <;>
  rfl

end Sys2Proof.Laws.RoundTrip
end

