-- ==== Sys2Proof/Safety.lean ====
section
/-! DEFINITION. What a well-formed state is (the invariant `Inv` that every step keeps) and what a safe step is. -/

namespace Sys2Proof.Safety

open Sys2Proof.Machine

/-- Every handle in a role or outstanding, once each: the lists and slots of R707 put together. -/
def handlesInRoles (p : Pool) : List Nat := p.free ++ p.pend ++ p.cur.toList ++ p.prev.toList ++ p.out

/-- The pool invariant of R707 for a capacity: each handle `0 .. POOL_CAP - 1` has exactly one role; and the bounds of R702, R750. -/
structure PoolOk (cap : Nat) (p : Pool) : Prop where
  roles    : (handlesInRoles p).Perm (List.range cap)
  pendMax  : p.pend.length ≤ Config.maxPend
  shownIn  : p.shown < cap
  lockFree : p.lock = .free
  chroma   : p.chromaInUse.length = cap

/-- The parameters satisfy R10 and R830, and no page table, present or initial, leaves `PHYS` or makes ROM writable (R72). -/
structure ConfigOk (s : State) : Prop where
  parameters : Config.parametersOk s.cfg = true
  capacity   : Config.poolCapOk s.cfg = true
  inside     : Config.pagesInside s.cfg s.pt = true
  insideInit : Config.pagesInside s.cfg s.cfg.ptInit = true
  rom        : Config.romProtected s.cfg s.pt = true
  romInit    : Config.romProtected s.cfg s.cfg.ptInit = true

/-- Every storage is in canonical form, and there is one pixel and one chroma storage for each handle (R47, R48). -/
structure StorageOk (s : State) : Prop where
  phys      : s.phys.wf = true
  pix       : ∀ m ∈ s.pix, m.wf = true
  chroma    : ∀ m ∈ s.chroma, m.wf = true
  pixLen    : s.pix.length = s.cfg.poolCap
  chromaLen : s.chroma.length = s.cfg.poolCap

/-- A well-formed state: what every step keeps. EMU's draw buffer is the one outstanding handle (R45, R876), and the cycle counter
is inside its modulus (R39). -/
structure Inv (s : State) : Prop where
  config  : ConfigOk s
  storage : StorageOk s
  pool    : PoolOk s.cfg.poolCap s.pool
  draw    : s.pool.out = s.draw.toList
  counter : s.ts < s.cfg.fieldModulus

/-- The machine does not stop at this step. -/
def Safe (s : State) : Prop := ∃ t, step s = .next t

/-- The byte at an address is an index prefix (R119). -/
def atIndexPrefix (s : State) (a : Word) : Bool := isIndexPrefix (s.memRead a)

end Sys2Proof.Safety
end

