-- ==== Sys2Proof/Certificates/Slice0/Obligations.lean ====
section
/-! DEFINITION. The statements for the provers, from the numbered rules of spec/; before them the words they share: what a flag byte
holds, what storage holds after a write, the operand forms, and which registers, flags and bytes an instruction may write. -/

namespace Sys2Proof.Claims

open Machine Safety

/-! ### Flags (R32) -/

/-- The eight bits of a flag byte, in the order of R32: `S Z Y H X P/V N C`. -/
def FlagsAre (f : Byte) (sign zero y half x pv n carry : Bool) : Prop :=
  f.getLsbD 7 = sign ∧ f.getLsbD 6 = zero ∧ f.getLsbD 5 = y ∧ f.getLsbD 4 = half ∧ f.getLsbD 3 = x ∧ f.getLsbD 2 = pv ∧
    f.getLsbD 1 = n ∧ f.getLsbD 0 = carry

/-- Has a byte an even number of one bits (R33)? -/
def evenOnes (v : Byte) : Bool := (List.range 8).countP v.getLsbD % 2 == 0

/-- The flags of `ADD8(a, b, cin)` (R34). -/
def AddFlags (a b : Byte) (cin : Bool) (f : Byte) : Prop :=
  let res := a + b + BitVec.ofNat 8 cin.toNat
  FlagsAre f (res.getLsbD 7) (res == 0) (res.getLsbD 5) (decide (15 < a.toNat % 16 + b.toNat % 16 + cin.toNat)) (res.getLsbD 3)
    (a.getLsbD 7 == b.getLsbD 7 && res.getLsbD 7 != a.getLsbD 7) false (decide (255 < a.toNat + b.toNat + cin.toNat))

/-- The flags of `SUB8(a, b, cin)` (R35). -/
def SubFlags (a b : Byte) (cin : Bool) (f : Byte) : Prop :=
  let res := a - b - BitVec.ofNat 8 cin.toNat
  FlagsAre f (res.getLsbD 7) (res == 0) (res.getLsbD 5) (decide (a.toNat % 16 < b.toNat % 16 + cin.toNat)) (res.getLsbD 3)
    (a.getLsbD 7 != b.getLsbD 7 && res.getLsbD 7 == b.getLsbD 7) true (decide (a.toNat < b.toNat + cin.toNat))

/-- `S`, `Z`, `X`, `Y` and parity from a result, with the other three flags given (R33). -/
def ResultFlags (res : Byte) (half n carry : Bool) (f : Byte) : Prop :=
  FlagsAre f (res.getLsbD 7) (res == 0) (res.getLsbD 5) half (res.getLsbD 3) (evenOnes res) n carry

/-- The flags of `INC8(v)`, with `C` as it was (R37). -/
def IncFlags (old v f : Byte) : Prop :=
  FlagsAre f ((v + 1).getLsbD 7) (v == 0xFF) ((v + 1).getLsbD 5) (v.toNat % 16 == 15) ((v + 1).getLsbD 3) (v == 0x7F) false
    (old.getLsbD 0)

/-- The flags of `DEC8(v)`, with `C` as it was (R37). -/
def DecFlags (old v f : Byte) : Prop :=
  FlagsAre f ((v - 1).getLsbD 7) (v == 0x01) ((v - 1).getLsbD 5) (v.toNat % 16 == 0) ((v - 1).getLsbD 3) (v == 0x80) true
    (old.getLsbD 0)

/-! ### What an instruction does -/

/-- The instruction completes in `n` T-states, with the register file `c` and everything else as it was. -/
def Gives (i : Instr) (s : State) (c : Cpu) (n : Nat) : Prop := exec i s = .next { s with cpu := c, cycles := n }

/-- Storage `m` is that of `s` after the byte `v` is written at `a`: stored when the page is writable, discarded when it is not
(R74). -/
def WroteByte (s : State) (m : Memory) (a : Word) (v : Byte) : Prop :=
  ∀ p, m.read p = if (s.entry a).writable = true ∧ p = s.physAddr a then v else s.phys.read p

/-- Storage `m` is that of `s` after `v` is written at `a` and then `w` at `b` (R74, R77, R78). -/
def WroteTwo (s : State) (m : Memory) (a : Word) (v : Byte) (b : Word) (w : Byte) : Prop :=
  ∀ p, m.read p =
    if (s.entry b).writable = true ∧ p = s.physAddr b then w
    else if (s.entry a).writable = true ∧ p = s.physAddr a then v
    else s.phys.read p

/-- The instruction completes in `n` T-states with the register file `c`, having stored the byte `v` at `a`. -/
def Stores (i : Instr) (s : State) (c : Cpu) (n : Nat) (a : Word) (v : Byte) : Prop :=
  ∃ m, exec i s = .next { s with cpu := c, phys := m, cycles := n } ∧ WroteByte s m a v

/-- The instruction completes in `n` T-states with the register file `c`, having stored `v` at `a` and then `w` at `b`. -/
def StoresTwo (i : Instr) (s : State) (c : Cpu) (n : Nat) (a : Word) (v : Byte) (b : Word) (w : Byte) : Prop :=
  ∃ m, exec i s = .next { s with cpu := c, phys := m, cycles := n } ∧ WroteTwo s m a v b w

/-- The instruction stores the word `w` at `a`, low byte first (R77). -/
def StoresWord (i : Instr) (s : State) (c : Cpu) (n : Nat) (a w : Word) : Prop :=
  StoresTwo i s c n a (w.extractLsb' 0 8) (a + 1) (w.extractLsb' 8 8)

/-- The instruction pushes the word `w`, high byte first, and its register file is `c` but for `SP` (R78). -/
def Pushes (i : Instr) (s : State) (c : Cpu) (n : Nat) (w : Word) : Prop :=
  StoresTwo i s { c with sp := s.cpu.sp - 2 } n (s.cpu.sp - 1) (w.extractLsb' 8 8) (s.cpu.sp - 2) (w.extractLsb' 0 8)

/-- The word at an address, low byte first (R77). -/
def wordIn (s : State) (a : Word) : Word := s.memRead (a + 1) ++ s.memRead a

/-! ### Operand forms (R300, R310 to R315, R400, R553, R554) -/

/-- One of the five operand forms of an accumulator operation: the instruction, its operand and its T-states (R300, R553). -/
def AccForm (onR : Reg8 → Instr) (onN : Byte → Instr) (onHl : Instr) (onIdx : Idx → Byte → Instr) (onHalf : Idx → Half → Instr)
    (s : State) (i : Instr) (v : Byte) (n : Nat) : Prop :=
  (∃ r, i = onR r ∧ v = s.cpu.reg r ∧ n = 4) ∨ (∃ k, i = onN k ∧ v = k ∧ n = 7) ∨
    (i = onHl ∧ v = s.memRead (s.cpu.h ++ s.cpu.l) ∧ n = 7) ∨
    (∃ x d, i = onIdx x d ∧ v = s.memRead (s.cpu.idx x + d.signExtend 16) ∧ n = 19) ∨
    (∃ x hf, i = onHalf x hf ∧ v = s.cpu.half x hf ∧ n = 8)

/-- The instruction completes with the accumulator `res` and flags that satisfy `flags`, and nothing else changed. -/
def AccResult (i : Instr) (s : State) (n : Nat) (res : Byte) (flags : Byte → Prop) : Prop :=
  ∃ f, Gives i s { s.cpu with a := res, f := f } n ∧ flags f

/-- The three forms of a CB-table operation that writes back: register, `(HL)`, `(IX+d)` (R400), and the indexed form that also
writes a register (R556, R557). `res` is the new byte and `flags` the flags it may leave, from the byte read. -/
def BitForms (onR : Reg8 → Instr) (onHl : Instr) (onIdx : Idx → Byte → Instr) (onCopy : Idx → Byte → Reg8 → Instr)
    (res : Byte → Byte) (flags : Byte → Byte → Prop) (s : State) : Prop :=
  (∀ r, ∃ f, Gives (onR r) s { s.cpu.setReg r (res (s.cpu.reg r)) with f := f } 8 ∧ flags (s.cpu.reg r) f) ∧
  (∃ f, Stores onHl s { s.cpu with f := f } 15 s.cpu.hl (res (s.memRead s.cpu.hl)) ∧ flags (s.memRead s.cpu.hl) f) ∧
  (∀ x d, ∃ f, Stores (onIdx x d) s { s.cpu with f := f } 23 (s.cpu.idxAddr x d) (res (s.memRead (s.cpu.idxAddr x d))) ∧
    flags (s.memRead (s.cpu.idxAddr x d)) f) ∧
  (∀ x d r, ∃ f, Stores (onCopy x d r) s { s.cpu.setReg r (res (s.memRead (s.cpu.idxAddr x d))) with f := f } 23
    (s.cpu.idxAddr x d) (res (s.memRead (s.cpu.idxAddr x d))) ∧ flags (s.memRead (s.cpu.idxAddr x d)) f)

/-! ### Which registers, flags and bytes an instruction may write -/

/-- The registers of the file but `F` and `PFX`, each under its own name (R21 to R31). -/
inductive RegName where
  | a | b | c | d | e | h | l | a2 | f2 | b2 | c2 | d2 | e2 | h2 | l2 | ix | iy | sp | pc | i | r | iff1 | iff2 | im | halted | eiDelay
  deriving DecidableEq, Repr

/-- The value of a register, as a number. -/
def valueOf (c : Cpu) : RegName → Nat
  | .a => c.a.toNat
  | .b => c.b.toNat
  | .c => c.c.toNat
  | .d => c.d.toNat
  | .e => c.e.toNat
  | .h => c.h.toNat
  | .l => c.l.toNat
  | .a2 => c.a2.toNat
  | .f2 => c.f2.toNat
  | .b2 => c.b2.toNat
  | .c2 => c.c2.toNat
  | .d2 => c.d2.toNat
  | .e2 => c.e2.toNat
  | .h2 => c.h2.toNat
  | .l2 => c.l2.toNat
  | .ix => c.ix.toNat
  | .iy => c.iy.toNat
  | .sp => c.sp.toNat
  | .pc => c.pc.toNat
  | .i => c.i.toNat
  | .r => c.r.toNat
  | .iff1 => c.iff1.toNat
  | .iff2 => c.iff2.toNat
  | .im => match c.im with
    | .im0 => 0
    | .im1 => 1
    | .im2 => 2
  | .halted => c.halted.toNat
  | .eiDelay => c.eiDelay.toNat

/-- The name of a register operand. -/
def regName : Reg8 → RegName
  | .b => .b
  | .c => .c
  | .d => .d
  | .e => .e
  | .h => .h
  | .l => .l
  | .a => .a

/-- The registers a pair operand is made of. -/
def pairNames : Pair → List RegName
  | .bc => [.b, .c]
  | .de => [.d, .e]
  | .hl => [.h, .l]
  | .sp => [.sp]

/-- The registers a stack pair is made of, `F` apart. -/
def stackPairNames : StackPair → List RegName
  | .bc => [.b, .c]
  | .de => [.d, .e]
  | .hl => [.h, .l]
  | .af => [.a]

/-- The name of an index register. -/
def idxName : Idx → RegName
  | .ix => .ix
  | .iy => .iy

/-- The register `y[i]` of R551 is part of. -/
def yNames (x : Idx) : Reg8 → List RegName
  | .h => [idxName x]
  | .l => [idxName x]
  | .b => [.b]
  | .c => [.c]
  | .d => [.d]
  | .e => [.e]
  | .a => [.a]

/-- What an instruction may write: registers, the bits of `F`, the addresses it stores to. -/
structure Touch where
  regs : List RegName
  flags : Byte
  stores : List Word

/-- `PC` where the condition of a jump or of a repetition holds. -/
def pcIf (b : Bool) : List RegName := if b then [.pc] else []

/-- What each row may write in a state, as its rule says: the destination registers, with `PC` for a jump, call, return or restart
that is taken, `HALT`, and a block form that repeats, the flags it names as written, and the
addresses of its stores (R200, R300, R400, R450, R500). A prefix row writes nothing of its own. -/
def touch (i : Instr) (s : State) : Touch :=
  match i with
  | .nop => ⟨[], 0, []⟩
  | .ldPairNn p _ => ⟨pairNames p, 0, []⟩
  | .ldAtBcA => ⟨[], 0, [s.cpu.bc]⟩
  | .incPair p => ⟨pairNames p, 0, []⟩
  | .incR r => ⟨[regName r], 0xFE, []⟩
  | .decR r => ⟨[regName r], 0xFE, []⟩
  | .ldRN r _ => ⟨[regName r], 0, []⟩
  | .rlca => ⟨[.a], 0x3B, []⟩
  | .exAfAf => ⟨[.a, .a2, .f2], 0xFF, []⟩
  | .addHlPair _ => ⟨[.h, .l], 0x3B, []⟩
  | .ldAAtBc => ⟨[.a], 0, []⟩
  | .decPair p => ⟨pairNames p, 0, []⟩
  | .rrca => ⟨[.a], 0x3B, []⟩
  | .djnz _ => ⟨.b :: pcIf (s.cpu.b != 1), 0, []⟩
  | .ldAtDeA => ⟨[], 0, [s.cpu.de]⟩
  | .rla => ⟨[.a], 0x3B, []⟩
  | .jr _ => ⟨[.pc], 0, []⟩
  | .ldAAtDe => ⟨[.a], 0, []⟩
  | .rra => ⟨[.a], 0x3B, []⟩
  | .jrNz _ => ⟨pcIf (s.cpu.holds .nz), 0, []⟩
  | .ldAtNnHl nn => ⟨[], 0, [nn, nn + 1]⟩
  | .daa => ⟨[.a], 0xFD, []⟩
  | .jrZ _ => ⟨pcIf (s.cpu.holds .z), 0, []⟩
  | .ldHlAtNn _ => ⟨[.h, .l], 0, []⟩
  | .cpl => ⟨[.a], 0x3A, []⟩
  | .jrNc _ => ⟨pcIf (s.cpu.holds .nc), 0, []⟩
  | .ldAtNnA nn => ⟨[], 0, [nn]⟩
  | .incAtHl => ⟨[], 0xFE, [s.cpu.hl]⟩
  | .decAtHl => ⟨[], 0xFE, [s.cpu.hl]⟩
  | .ldAtHlN _ => ⟨[], 0, [s.cpu.hl]⟩
  | .scf => ⟨[], 0x3B, []⟩
  | .jrC _ => ⟨pcIf (s.cpu.holds .c), 0, []⟩
  | .ldAAtNn _ => ⟨[.a], 0, []⟩
  | .ccf => ⟨[], 0x3B, []⟩
  | .ldRR r _ => ⟨[regName r], 0, []⟩
  | .ldRAtHl r => ⟨[regName r], 0, []⟩
  | .ldAtHlR _ => ⟨[], 0, [s.cpu.hl]⟩
  | .halt => ⟨[.pc, .halted], 0, []⟩
  | .addAR _ => ⟨[.a], 0xFF, []⟩
  | .addAAtHl => ⟨[.a], 0xFF, []⟩
  | .addAN _ => ⟨[.a], 0xFF, []⟩
  | .adcAR _ => ⟨[.a], 0xFF, []⟩
  | .adcAAtHl => ⟨[.a], 0xFF, []⟩
  | .adcAN _ => ⟨[.a], 0xFF, []⟩
  | .subR _ => ⟨[.a], 0xFF, []⟩
  | .subAtHl => ⟨[.a], 0xFF, []⟩
  | .subN _ => ⟨[.a], 0xFF, []⟩
  | .sbcAR _ => ⟨[.a], 0xFF, []⟩
  | .sbcAAtHl => ⟨[.a], 0xFF, []⟩
  | .sbcAN _ => ⟨[.a], 0xFF, []⟩
  | .andR _ => ⟨[.a], 0xFF, []⟩
  | .andAtHl => ⟨[.a], 0xFF, []⟩
  | .andN _ => ⟨[.a], 0xFF, []⟩
  | .xorR _ => ⟨[.a], 0xFF, []⟩
  | .xorAtHl => ⟨[.a], 0xFF, []⟩
  | .xorN _ => ⟨[.a], 0xFF, []⟩
  | .orR _ => ⟨[.a], 0xFF, []⟩
  | .orAtHl => ⟨[.a], 0xFF, []⟩
  | .orN _ => ⟨[.a], 0xFF, []⟩
  | .cpR _ => ⟨[], 0xFF, []⟩
  | .cpAtHl => ⟨[], 0xFF, []⟩
  | .cpN _ => ⟨[], 0xFF, []⟩
  | .retCc cc => ⟨if s.cpu.holds cc then [.pc, .sp] else [], 0, []⟩
  | .popPair q => ⟨.sp :: stackPairNames q, if q = .af then 0xFF else 0, []⟩
  | .jpCcNn cc _ => ⟨pcIf (s.cpu.holds cc), 0, []⟩
  | .jpNn _ => ⟨[.pc], 0, []⟩
  | .outNA _ => ⟨[], 0, []⟩
  | .exAtSpHl => ⟨[.h, .l], 0, [s.cpu.sp, s.cpu.sp + 1]⟩
  | .di => ⟨[.iff1, .iff2], 0, []⟩
  | .callCcNn cc _ =>
    ⟨if s.cpu.holds cc then [.pc, .sp] else [], 0, if s.cpu.holds cc then [s.cpu.sp - 1, s.cpu.sp - 2] else []⟩
  | .pushPair _ => ⟨[.sp], 0, [s.cpu.sp - 1, s.cpu.sp - 2]⟩
  | .rst _ => ⟨[.pc, .sp], 0, [s.cpu.sp - 1, s.cpu.sp - 2]⟩
  | .ret => ⟨[.pc, .sp], 0, []⟩
  | .exx => ⟨[.b, .c, .d, .e, .h, .l, .b2, .c2, .d2, .e2, .h2, .l2], 0, []⟩
  | .jpHl => ⟨[.pc], 0, []⟩
  | .ldSpHl => ⟨[.sp], 0, []⟩
  | .prefixCb => ⟨[], 0, []⟩
  | .inAN _ => ⟨[.a], 0, []⟩
  | .exDeHl => ⟨[.d, .e, .h, .l], 0, []⟩
  | .ei => ⟨[.iff1, .iff2, .eiDelay], 0, []⟩
  | .callNn _ => ⟨[.pc, .sp], 0, [s.cpu.sp - 1, s.cpu.sp - 2]⟩
  | .prefixDd => ⟨[], 0, []⟩
  | .prefixEd => ⟨[], 0, []⟩
  | .prefixFd => ⟨[], 0, []⟩
  | .rlcR r => ⟨[regName r], 0xFF, []⟩
  | .rlcAtHl => ⟨[], 0xFF, [s.cpu.hl]⟩
  | .rrcR r => ⟨[regName r], 0xFF, []⟩
  | .rrcAtHl => ⟨[], 0xFF, [s.cpu.hl]⟩
  | .rlR r => ⟨[regName r], 0xFF, []⟩
  | .rlAtHl => ⟨[], 0xFF, [s.cpu.hl]⟩
  | .rrR r => ⟨[regName r], 0xFF, []⟩
  | .rrAtHl => ⟨[], 0xFF, [s.cpu.hl]⟩
  | .slaR r => ⟨[regName r], 0xFF, []⟩
  | .slaAtHl => ⟨[], 0xFF, [s.cpu.hl]⟩
  | .sraR r => ⟨[regName r], 0xFF, []⟩
  | .sraAtHl => ⟨[], 0xFF, [s.cpu.hl]⟩
  | .sllR r => ⟨[regName r], 0xFF, []⟩
  | .sllAtHl => ⟨[], 0xFF, [s.cpu.hl]⟩
  | .srlR r => ⟨[regName r], 0xFF, []⟩
  | .srlAtHl => ⟨[], 0xFF, [s.cpu.hl]⟩
  | .bitR _ _ => ⟨[], 0xFE, []⟩
  | .bitAtHl _ => ⟨[], 0xFE, []⟩
  | .resR _ r => ⟨[regName r], 0, []⟩
  | .resAtHl _ => ⟨[], 0, [s.cpu.hl]⟩
  | .setR _ r => ⟨[regName r], 0, []⟩
  | .setAtHl _ => ⟨[], 0, [s.cpu.hl]⟩
  | .inRC r => ⟨[regName r], 0xFE, []⟩
  | .inFC => ⟨[], 0xFE, []⟩
  | .outCR _ => ⟨[], 0, []⟩
  | .outC0 => ⟨[], 0, []⟩
  | .sbcHlPair _ => ⟨[.h, .l], 0xFF, []⟩
  | .adcHlPair _ => ⟨[.h, .l], 0xFF, []⟩
  | .ldAtNnPair _ nn => ⟨[], 0, [nn, nn + 1]⟩
  | .ldPairAtNn p _ => ⟨pairNames p, 0, []⟩
  | .neg => ⟨[.a], 0xFF, []⟩
  | .negMirror _ => ⟨[.a], 0xFF, []⟩
  | .retn => ⟨[.pc, .sp, .iff1], 0, []⟩
  | .reti => ⟨[.pc, .sp, .iff1], 0, []⟩
  | .retnMirror _ => ⟨[.pc, .sp, .iff1], 0, []⟩
  | .im0 => ⟨[.im], 0, []⟩
  | .im1 => ⟨[.im], 0, []⟩
  | .im2 => ⟨[.im], 0, []⟩
  | .im0Mirror4E => ⟨[.im], 0, []⟩
  | .im0Mirror66 => ⟨[.im], 0, []⟩
  | .im0Mirror6E => ⟨[.im], 0, []⟩
  | .im1Mirror => ⟨[.im], 0, []⟩
  | .im2Mirror => ⟨[.im], 0, []⟩
  | .ldIA => ⟨[.i], 0, []⟩
  | .ldRefreshA => ⟨[.r], 0, []⟩
  | .ldAI => ⟨[.a], 0xFE, []⟩
  | .ldARefresh => ⟨[.a], 0xFE, []⟩
  | .rrd => ⟨[.a], 0xFE, [s.cpu.hl]⟩
  | .rld => ⟨[.a], 0xFE, [s.cpu.hl]⟩
  | .nopEd77 => ⟨[], 0, []⟩
  | .nopEd7F => ⟨[], 0, []⟩
  | .ldi => ⟨[.b, .c, .d, .e, .h, .l], 0x3E, [s.cpu.de]⟩
  | .cpi => ⟨[.b, .c, .h, .l], 0xFE, []⟩
  | .ini => ⟨[.b, .h, .l], 0xFF, [s.cpu.hl]⟩
  | .outi => ⟨[.b, .h, .l], 0xFF, []⟩
  | .ldd => ⟨[.b, .c, .d, .e, .h, .l], 0x3E, [s.cpu.de]⟩
  | .cpd => ⟨[.b, .c, .h, .l], 0xFE, []⟩
  | .ind => ⟨[.b, .h, .l], 0xFF, [s.cpu.hl]⟩
  | .outd => ⟨[.b, .h, .l], 0xFF, []⟩
  | .ldir => ⟨[.b, .c, .d, .e, .h, .l] ++ pcIf (s.cpu.bc != 1), 0x3E, [s.cpu.de]⟩
  | .cpir => ⟨[.b, .c, .h, .l] ++ pcIf (s.cpu.bc != 1 && s.cpu.a != s.memRead s.cpu.hl), 0xFE, []⟩
  | .inir => ⟨[.b, .h, .l] ++ pcIf (s.cpu.b != 1), 0xFF, [s.cpu.hl]⟩
  | .otir => ⟨[.b, .h, .l] ++ pcIf (s.cpu.b != 1), 0xFF, []⟩
  | .lddr => ⟨[.b, .c, .d, .e, .h, .l] ++ pcIf (s.cpu.bc != 1), 0x3E, [s.cpu.de]⟩
  | .cpdr => ⟨[.b, .c, .h, .l] ++ pcIf (s.cpu.bc != 1 && s.cpu.a != s.memRead s.cpu.hl), 0xFE, []⟩
  | .indr => ⟨[.b, .h, .l] ++ pcIf (s.cpu.b != 1), 0xFF, [s.cpu.hl]⟩
  | .otdr => ⟨[.b, .h, .l] ++ pcIf (s.cpu.b != 1), 0xFF, []⟩
  | .nopEdUndefined _ => ⟨[], 0, []⟩
  | .ldIdxNn x _ => ⟨[idxName x], 0, []⟩
  | .addIdxPair x _ => ⟨[idxName x], 0x3B, []⟩
  | .ldAtNnIdx _ nn => ⟨[], 0, [nn, nn + 1]⟩
  | .incIdx x => ⟨[idxName x], 0, []⟩
  | .incHalf x _ => ⟨[idxName x], 0xFE, []⟩
  | .decHalf x _ => ⟨[idxName x], 0xFE, []⟩
  | .ldHalfN x _ _ => ⟨[idxName x], 0, []⟩
  | .ldIdxAtNn x _ => ⟨[idxName x], 0, []⟩
  | .decIdx x => ⟨[idxName x], 0, []⟩
  | .incAtIdx x d => ⟨[], 0xFE, [s.cpu.idxAddr x d]⟩
  | .decAtIdx x d => ⟨[], 0xFE, [s.cpu.idxAddr x d]⟩
  | .ldAtIdxN x d _ => ⟨[], 0, [s.cpu.idxAddr x d]⟩
  | .ldRAtIdx _ r _ => ⟨[regName r], 0, []⟩
  | .ldAtIdxR x _ d => ⟨[], 0, [s.cpu.idxAddr x d]⟩
  | .ldRHalf x r _ => ⟨yNames x r, 0, []⟩
  | .ldHalfR x _ _ => ⟨[idxName x], 0, []⟩
  | .addAHalf _ _ => ⟨[.a], 0xFF, []⟩
  | .addAAtIdx _ _ => ⟨[.a], 0xFF, []⟩
  | .adcAHalf _ _ => ⟨[.a], 0xFF, []⟩
  | .adcAAtIdx _ _ => ⟨[.a], 0xFF, []⟩
  | .subHalf _ _ => ⟨[.a], 0xFF, []⟩
  | .subAtIdx _ _ => ⟨[.a], 0xFF, []⟩
  | .sbcAHalf _ _ => ⟨[.a], 0xFF, []⟩
  | .sbcAAtIdx _ _ => ⟨[.a], 0xFF, []⟩
  | .andHalf _ _ => ⟨[.a], 0xFF, []⟩
  | .andAtIdx _ _ => ⟨[.a], 0xFF, []⟩
  | .xorHalf _ _ => ⟨[.a], 0xFF, []⟩
  | .xorAtIdx _ _ => ⟨[.a], 0xFF, []⟩
  | .orHalf _ _ => ⟨[.a], 0xFF, []⟩
  | .orAtIdx _ _ => ⟨[.a], 0xFF, []⟩
  | .cpHalf _ _ => ⟨[], 0xFF, []⟩
  | .cpAtIdx _ _ => ⟨[], 0xFF, []⟩
  | .popIdx x => ⟨[.sp, idxName x], 0, []⟩
  | .exAtSpIdx x => ⟨[idxName x], 0, [s.cpu.sp, s.cpu.sp + 1]⟩
  | .pushIdx _ => ⟨[.sp], 0, [s.cpu.sp - 1, s.cpu.sp - 2]⟩
  | .jpIdx _ => ⟨[.pc], 0, []⟩
  | .ldSpIdx _ => ⟨[.sp], 0, []⟩
  | .prefixIdxCb _ => ⟨[], 0, []⟩
  | .indexPrefixNoEffect _ _ => ⟨[], 0, []⟩
  | .rlcAtIdx x d => ⟨[], 0xFF, [s.cpu.idxAddr x d]⟩
  | .rlcAtIdxR x d r => ⟨[regName r], 0xFF, [s.cpu.idxAddr x d]⟩
  | .rrcAtIdx x d => ⟨[], 0xFF, [s.cpu.idxAddr x d]⟩
  | .rrcAtIdxR x d r => ⟨[regName r], 0xFF, [s.cpu.idxAddr x d]⟩
  | .rlAtIdx x d => ⟨[], 0xFF, [s.cpu.idxAddr x d]⟩
  | .rlAtIdxR x d r => ⟨[regName r], 0xFF, [s.cpu.idxAddr x d]⟩
  | .rrAtIdx x d => ⟨[], 0xFF, [s.cpu.idxAddr x d]⟩
  | .rrAtIdxR x d r => ⟨[regName r], 0xFF, [s.cpu.idxAddr x d]⟩
  | .slaAtIdx x d => ⟨[], 0xFF, [s.cpu.idxAddr x d]⟩
  | .slaAtIdxR x d r => ⟨[regName r], 0xFF, [s.cpu.idxAddr x d]⟩
  | .sraAtIdx x d => ⟨[], 0xFF, [s.cpu.idxAddr x d]⟩
  | .sraAtIdxR x d r => ⟨[regName r], 0xFF, [s.cpu.idxAddr x d]⟩
  | .sllAtIdx x d => ⟨[], 0xFF, [s.cpu.idxAddr x d]⟩
  | .sllAtIdxR x d r => ⟨[regName r], 0xFF, [s.cpu.idxAddr x d]⟩
  | .srlAtIdx x d => ⟨[], 0xFF, [s.cpu.idxAddr x d]⟩
  | .srlAtIdxR x d r => ⟨[regName r], 0xFF, [s.cpu.idxAddr x d]⟩
  | .bitAtIdx _ _ _ => ⟨[], 0xFE, []⟩
  | .bitAtIdxMirror _ _ _ _ => ⟨[], 0xFE, []⟩
  | .resAtIdx x _ d => ⟨[], 0, [s.cpu.idxAddr x d]⟩
  | .resAtIdxR x _ d r => ⟨[regName r], 0, [s.cpu.idxAddr x d]⟩
  | .setAtIdx x _ d => ⟨[], 0, [s.cpu.idxAddr x d]⟩
  | .setAtIdxR x _ d r => ⟨[regName r], 0, [s.cpu.idxAddr x d]⟩

/-! ### States at large -/

/-- The T-states of a step go through the counter and the raster only; this says that an outcome changes nothing but the register
file, the storage, the T-states and the count of free values. -/
def OnlyCpu (s t : State) : Prop :=
  t = { s with cpu := t.cpu, phys := t.phys, cycles := t.cycles, freeCount := t.freeCount }

/-- The raster position stays in the bounds of R655. -/
def RasterInBounds (s : State) : Prop :=
  0 ≤ s.ula.rasterX.toInt ∧ s.ula.rasterX.toInt < s.cfg.lineMax ∧
    0 ≤ s.ula.rasterY.toInt ∧ s.ula.rasterY.toInt < s.cfg.fieldMaxLines

/-- The bounds of R655 are values of a signed 32-bit register (R40). -/
def RasterFits (c : Config) : Prop := c.lineMax + c.xPerT ≤ 2 ^ 31 ∧ c.fieldMaxLines < 2 ^ 31

/-- The pulse level at `HS_COUNTER = 0` (R51, R611). -/
def pulseAtZero (c : Config) : Bool := decide ((0 - (c.hsOffset : Int)) % (c.lineTs : Int) < (c.hsWidth : Int))

/-- The CPU rows of R51. -/
def CpuReset (c : Cpu) : Prop :=
  (c.a = 0 ∧ c.f = 0 ∧ c.b = 0 ∧ c.c = 0 ∧ c.d = 0 ∧ c.e = 0 ∧ c.h = 0 ∧ c.l = 0) ∧
  (c.a2 = 0 ∧ c.f2 = 0 ∧ c.b2 = 0 ∧ c.c2 = 0 ∧ c.d2 = 0 ∧ c.e2 = 0 ∧ c.h2 = 0 ∧ c.l2 = 0) ∧
  (c.ix = 0 ∧ c.iy = 0 ∧ c.sp = 0 ∧ c.pc = 0 ∧ c.i = 0 ∧ c.r = 0) ∧
  (c.iff1 = false ∧ c.iff2 = false ∧ c.im = .im0 ∧ c.pfx = .none ∧ c.halted = false ∧ c.eiDelay = false)

/-- The raster, sync and interrupt-request rows of R51. -/
def UlaReset (c : Config) (u : Ula) : Prop :=
  (u.rasterX = 0 ∧ u.rasterY = 0 ∧ u.row = 0 ∧ u.syncLen = 0 ∧ u.vsX = 0 ∧ u.vsY = 0) ∧
  (u.vsyncState = false ∧ u.hsCounter = 0 ∧ u.nmiGenOn = false ∧ u.hsyncState = pulseAtZero c) ∧
  (u.l1 = false ∧ u.l2 = false ∧ u.l3 = false ∧ u.l2Len = 0 ∧ u.rowHold = false) ∧
  u.nmiPending = false ∧
  (∀ v, c.intGen = some v → u.intGen = v) ∧ (c.intGen = none → u.intGen = Config.intGenFn u.syncFields)

/-- The pool rows of R703. -/
def PoolReset (c : Config) (p : Pool) : Prop :=
  p.free = List.range c.poolCap ∧ p.pend = [] ∧ p.cur = none ∧ p.prev = none ∧ p.out = [] ∧ p.shown = 0 ∧ p.blanked = false ∧
    p.blankColour = .black ∧ (p.interlace = true ↔ c.frameSync = .interlaced) ∧ p.frameParity = false ∧ p.noSkip = false ∧
    p.lock = .free ∧ p.renderReady = false ∧ p.chromaInUse = List.replicate c.poolCap false

/-- The operations of both agents on a pool, as one step each (R704): acquire, submit of an outstanding handle, blank, current,
advance. `none`: the operation reports its error. -/
inductive PoolCall where
  | acquire
  | submit (h : Nat) (deferred release coloured : Bool)
  | blank (toBlack : Bool)
  | current
  | advance
  deriving DecidableEq, Repr

/-- One pool operation (R710 to R740). -/
def callPool (colour : Bool) (p : Pool) : PoolCall → Option Pool
  | .acquire => p.acquireFree.map (·.2)
  | .submit h deferred release coloured => p.submit colour h deferred release coloured
  | .blank toBlack => some (p.blank toBlack)
  | .current => some p.promote
  | .advance => some p.advanceFrame

/-- Operations one after the other; one that reports its error ends the sequence. -/
def callsPool (colour : Bool) : List PoolCall → Pool → Option Pool
  | [], p => some p
  | c :: cs, p => (callPool colour p c).bind (callsPool colour cs)

/-- The role invariant of R707 for a capacity: no list repeats a handle, the roles are disjoint, and together they hold the handles
`0 .. cap - 1`. -/
def OneRoleEach (cap : Nat) (p : Pool) : Prop := (p.free ++ p.pend ++ p.cur.toList ++ p.prev.toList ++ p.out).Perm (List.range cap)

end Sys2Proof.Claims

open Sys2Proof Sys2Proof.Machine Sys2Proof.Safety Sys2Proof.Claims

/-- Derived from 10_state.md section 9 (R51, R52); 48_frame_pool.md section 1 (R703); 70_reset_and_hazards.md section 1 (R870,
R871). For every state: machine reset gives every CPU, page-table, counter, raster, sync and interrupt-request row of R51 its
value (PT is PT_INIT, INT_GEN is INT_GEN_FN of the reset sync state) and changes neither PHYS, the pool, DRAW, the pixel nor
the chroma storage. Power-on of valid parameters with a ROM image gives the same rows their values, DRAW none, the pool of
R703, every pixel and chroma byte 0, an image as long as the ROM in PHYS and RAM as it was. The model's choices in it: the
default RESET_STATE for the CPU rows (log entry 1), storage before power-on as an argument (log entry 3), the ROM image from
physical address 0 on (log entry 5). -/
def Obligations.ResetsGiveTheirValues : Prop :=
  (∀ s : State,
    CpuReset s.machineReset.cpu ∧ s.machineReset.pt = s.cfg.ptInit ∧ s.machineReset.ts = 0 ∧ s.machineReset.frames = 0 ∧
    UlaReset s.cfg s.machineReset.ula ∧ s.machineReset.phys = s.phys ∧ s.machineReset.pool = s.pool ∧
    s.machineReset.draw = s.draw ∧ s.machineReset.pix = s.pix ∧ s.machineReset.chroma = s.chroma ∧
    s.machineReset.cfg = s.cfg) ∧
  (∀ (c : Config) (image : List Byte) (ram : Memory) (s : State), powerOn c (some image) ram = .next s →
    s.cfg = c ∧ CpuReset s.cpu ∧ s.pt = c.ptInit ∧ s.ts = 0 ∧ s.frames = 0 ∧ UlaReset c s.ula ∧ s.draw = none ∧
    PoolReset c s.pool ∧ (∀ h j, h < c.poolCap → (s.pix.getD h []).read j = 0 ∧ (s.chroma.getD h []).read j = 0) ∧
    (image.length = c.romBytes →
      (∀ k, k < c.romBytes → s.phys.read k = image.getD k 0) ∧ ∀ k, c.romBytes ≤ k → s.phys.read k = ram.read k))

/-- Derived from 60_exceptions.md section 5 (R830); 00_scope.md section 5 (R9, R10); 20_memory.md (R72, R75). Power-on answers
a next state when every constraint holds: POOL_CAP in 1..4, no timing or geometry parameter zero, HS_OFFSET and HS_WIDTH below
LINE_TS, FIELD_MODULUS above 23, BUF_W at most 8 times STRIDE, the initial page table inside PHYS with no ROM page writable,
an image given. With every other constraint met, a capacity out of range is ConfigError(pool_capacity), any of the parameter
constraints failing ConfigError(parameter), a page outside PHYS or a writable ROM page ConfigError(page_table), no image
ConfigError(rom_missing); whichever of them fail together, the answer is some ConfigError. acquire_free with FREE, PREV and
CUR all empty is ConfigError(pool_exhausted). The bound 23, the test of STRIDE and the answer to a writable ROM page are the
model's choice (log entry 20). -/
def Obligations.PowerOnChecksItsParameters : Prop :=
  (∀ (c : Config) (rom : Option (List Byte)) (ram : Memory),
    let capacity := 1 ≤ c.poolCap ∧ c.poolCap ≤ 4
    let zero := c.bufW = 0 ∨ c.bufH = 0 ∨ c.stride = 0 ∨ c.lineTs = 0 ∨ c.hsWidth = 0 ∨ c.xPerT = 0 ∨ c.lineMax = 0 ∨
      c.fieldMaxLines = 0 ∨ c.vsyncThreshold = 0 ∨ c.hsWidthB = 0 ∨ c.fieldModulus = 0
    let wrong := zero ∨ c.lineTs ≤ c.hsOffset ∨ c.lineTs ≤ c.hsWidth ∨ c.fieldModulus ≤ 23 ∨ 8 * c.stride < c.bufW
    let outside := ∃ e ∈ c.ptInit.toList, c.physBytes < e.base + 1024
    let writableRom := ∃ e ∈ c.ptInit.toList, e.base < c.romBytes ∧ e.writable = true
    (¬capacity → ¬wrong → ¬outside → ¬writableRom → rom.isSome → powerOn c rom ram = .fault (.configError .poolCapacity)) ∧
    (capacity → wrong → ¬outside → ¬writableRom → rom.isSome → powerOn c rom ram = .fault (.configError .parameter)) ∧
    (capacity → ¬wrong → outside ∨ writableRom → rom.isSome → powerOn c rom ram = .fault (.configError .pageTable)) ∧
    (capacity → ¬wrong → ¬outside → ¬writableRom → rom = none → powerOn c rom ram = .fault (.configError .romMissing)) ∧
    (¬capacity ∨ wrong ∨ outside ∨ writableRom ∨ rom = none → ∃ what, powerOn c rom ram = .fault (.configError what)) ∧
    (capacity → ¬wrong → ¬outside → ¬writableRom → rom.isSome → ∃ s, powerOn c rom ram = .next s)) ∧
  (∀ s : State, s.pool.lock = .free → s.renBetween = [] → s.pool.free = [] → s.pool.prev = none → s.pool.cur = none →
    s.acquireDraw = .fault (.configError .poolExhausted))

/-- Derived from 10_state.md section 9; 48_frame_pool.md section 1. Sys2Proof.Machine.State.reset satisfies the invariant Inv:
valid parameters, page table inside PHYS and no ROM page writable, storage in canonical form, each buffer handle in exactly
one role, the draw buffer the one outstanding handle, TS below the modulus. The default parameters are the model's choice (log
entry 4). -/
def Obligations.ResetIsWellFormed : Prop := Inv State.reset

/-- Derived from 48_frame_pool.md section 5; 20_memory.md section 1; 40_interpreter_step.md section 4. For every well-formed
state s (not only reachable ones), whatever step does there (an action of REN or HOST, the start of EMU, an interrupt entry,
any instruction, the raster and the hand-off to the pool), if it answers next t then t is well formed: each handle has exactly
one role and the draw buffer is the one outstanding handle, storage keeps its canonical form, ROM pages stay read-only and
inside PHYS, TS stays below the modulus. -/
def Obligations.EveryStepKeepsInvariant : Prop := ∀ s t : State, Inv s → step s = .next t → Inv t

/-- Derived from 40_interpreter_step.md R142, R148; 48_frame_pool.md R712; 60_exceptions.md R834. For every well-formed state
with POOL_CAP at least 3 and no action of REN or HOST due: if some address of the CPU holds a byte other than 0xDD and 0xFD,
step answers a next state. No instruction, interrupt entry, sync event or hand-off ever faults or is refused. -/
def Obligations.StepNeverStops : Prop :=
  ∀ s : State, Inv s → 3 ≤ s.cfg.poolCap → s.agenda = [] →
    (∃ a : Word, s.memRead a ≠ 0xDD ∧ s.memRead a ≠ 0xFD) → ∃ t, step s = .next t

/-- The rules R148 state this. If every address of the CPU reads 0xDD or 0xFD, and EMU is started, no interrupt is due and no
byte at PC is a video byte, the step has no next state: it ends in the fault of the endless prefix chain; and no other outcome
of a well-formed state with POOL_CAP at least 3 and no action due is that fault. -/
def Obligations.EndlessPrefixChainIsStuck : Prop :=
  (∀ s : State, s.agenda = [] → s.draw.isSome → s.ula.nmiPending = false → s.intSample = false →
    (∀ a : Word, s.memRead a = 0xDD ∨ s.memRead a = 0xFD) → step s = .fault .endlessPrefixChain) ∧
  (∀ s : State, Inv s → 3 ≤ s.cfg.poolCap → s.agenda = [] → step s = .fault .endlessPrefixChain →
    ∀ a : Word, s.memRead a = 0xDD ∨ s.memRead a = 0xFD)

/-- Derived from 20_memory.md R72, R74, R75; 00_scope.md section 5 (R9). A rebuild of the page table, whatever attributes are
asked for, leaves every page whose base lies in the ROM image not writable and every other entry as asked. A change of
RAM_SIZE, LOW_RAM or ROM_VARIANT does the same for the size of the new ROM, with the board's map or, where none is given, the
default map of R75; the table becomes PT and PT_INIT, the inputs are kept, a new variant's image is in the ROM part of PHYS,
and the rest of the state stays; for 1 to 16 KB of RAM, a ROM of 4 or 8 KB with an image, and 32768 bytes of PHYS it completes
with the default map. For every well-formed state and whatever stepCpu does there (NMI entry, interrupt entry, any instruction
with its prefixes, a video byte): a byte of PHYS that no writable page maps is the same afterwards; in particular every byte
of the ROM image that only ROM pages map. That a rebuild carries the whole table asked for and what a change of the inputs
does to PHYS are the model's choice (log entry 18), and so are the places of the ROM image at the physical addresses below
romBytes, of RAM at 8192 and of low RAM at 24576 (log entry 5). -/
def Obligations.RomNeverChanges : Prop :=
  (∀ (s t : State) (asked : PageTable), s.rebuildPages asked = .next t →
    ∀ p : Fin 64, t.pt[p].base = asked[p].base ∧
      t.pt[p].writable = (asked[p].writable && decide (s.cfg.romBytes ≤ asked[p].base))) ∧
  (∀ (s t : State) (inputs : MemoryInputs) (map : Option PageTable), s.changeMemory inputs map = .next t →
    let rom := match inputs.rom with
      | none => s.cfg.romBytes
      | some v => v.bytes
    t = { s with
      cfg := { s.cfg with ramSize := inputs.ramSize, lowRam := inputs.lowRam, romBytes := rom, ptInit := t.pt }
      pt := t.pt, phys := t.phys } ∧
    (∀ asked, map = some asked → ∀ p : Fin 64, t.pt[p].base = asked[p].base ∧
      t.pt[p].writable = (asked[p].writable && decide (rom ≤ asked[p].base))) ∧
    (map = none → (rom = 4096 ∨ rom = 8192) ∧ ∀ p : Fin 64,
      let q := p.val % 32
      t.pt[p] =
        if q < 8 then ⟨1024 * (q % (rom / 1024)), false⟩
        else if 16 ≤ q then ⟨8192 + 1024 * ((q - 16) % inputs.ramSize), true⟩
        else if inputs.lowRam then ⟨24576 + 1024 * (q - 8), true⟩
        else ⟨1024 * ((q - 8) % (rom / 1024)), false⟩) ∧
    (inputs.rom = none → t.phys = s.phys) ∧
    (∀ n image, inputs.rom = some ⟨n, some image⟩ → ∀ k,
      t.phys.read k = if k < n ∧ k < image.length then image.getD k 0 else s.phys.read k)) ∧
  (∀ (s : State) (size n : Nat) (low : Bool) (image : List Byte),
    1 ≤ size → size ≤ 16 → n = 4096 ∨ n = 8192 → 32768 ≤ s.cfg.physBytes →
    (∃ t, s.changeMemory ⟨size, low, some ⟨n, some image⟩⟩ none = .next t) ∧
    (s.cfg.romBytes = n → ∃ t, s.changeMemory ⟨size, low, none⟩ none = .next t)) ∧
  ∀ s t : State, Inv s → s.stepCpu = .next t →
    ∀ p, (∀ a : Word, (s.entry a).writable = true → s.physAddr a ≠ p) → t.phys.read p = s.phys.read p

/-- Derived from 30_encoding.md (R110 to R124, R130). For every well-formed instruction of all 213 rows, with every operand
value, and any bytes after it (none after a prefix row): decode of encode is that instruction with its length. -/
def Obligations.DecodeEncodeRoundTrip : Prop :=
  ∀ (i : Instr) (rest : List Byte), i.wf = true → (i.isPrefixRow = true → rest = []) →
    decode (encode i ++ rest) = .ok (i, (encode i).length)

/-- The rules R125 state this. For every byte list of length at least 4, decode answers a well-formed instruction i and a
length between 1 and 4, and encode i is the first bytes of that number: no byte sequence in memory is illegal, no bit of an
instruction is dropped, and no two byte sequences are one instruction. -/
def Obligations.EveryByteSequenceDecodes : Prop :=
  ∀ bs : List Byte, 4 ≤ bs.length →
    ∃ i len, decode bs = .ok (i, len) ∧ i.wf = true ∧ 1 ≤ len ∧ len ≤ 4 ∧ encode i = bs.take len

/-- Derived from 30_encoding.md (R110 to R124); 95_test_vectors.md. Twelve byte sequences, one or more of every table (main,
CB, ED, index, indexed CB), decode to the instructions the spec gives them. -/
def Obligations.WrittenOutWordsDecode : Prop :=
  decode [0x21, 0x34, 0x12] = .ok (.ldPairNn .hl 0x1234, 3) ∧ decode [0x41] = .ok (.ldRR .b .c, 1) ∧
  decode [0xC6, 0x05] = .ok (.addAN 0x05, 2) ∧ decode [0xCB, 0x11] = .ok (.rlR .c, 2) ∧
  decode [0xCB, 0xFE] = .ok (.setAtHl 7, 2) ∧ decode [0xED, 0xB0] = .ok (.ldir, 2) ∧
  decode [0xED, 0x4B, 0x00, 0x40] = .ok (.ldPairAtNn .bc 0x4000, 4) ∧
  decode [0xDD, 0x36, 0x02, 0xFF] = .ok (.ldAtIdxN .ix 0x02 0xFF, 4) ∧
  decode [0xFD, 0x85] = .ok (.addAHalf .iy .low, 2) ∧ decode [0xDD, 0xCB, 0x05, 0x46] = .ok (.bitAtIdx .ix 0 0x05, 4) ∧
  decode [0xFD, 0xCB, 0x00, 0x31] = .ok (.sllAtIdxR .iy 0x00 .c, 4) ∧ decode [0xCA, 0x34, 0x12] = .ok (.jpCcNn .z 0x1234, 3)

/-- Derived from 40_interpreter_step.md (R140, R141, R143 to R147). With no action due, EMU started, no interrupt taken and no
video byte at PC: if the four bytes at PC decode to i of length len, the step is exec of i at the state with EI_DELAY cleared,
PC moved past the len bytes, R advanced by one M1 fetch (two after a prefix) and PFX at the index prefix, followed by PFX back
to none, the advance of the cycle counter and of the raster by the T-states returned, and the window answer. -/
def Obligations.StepRunsDecodedInstruction : Prop :=
  ∀ (s : State) (i : Instr) (len : Nat),
    s.agenda = [] → s.draw.isSome → s.ula.nmiPending = false → s.intSample = false → s.atVideoByte = false →
    decode [s.memRead s.cpu.pc, s.memRead (s.cpu.pc + 1), s.memRead (s.cpu.pc + 2), s.memRead (s.cpu.pc + 3)] = .ok (i, len) →
    let first := s.memRead s.cpu.pc
    let r1 := incRefresh s.cpu.r
    let prefixed := (first == 0xCB || first == 0xED || first == 0xDD || first == 0xFD) && decide (2 ≤ len)
    let fetched : State :=
      { s with
        ev := ⟨false, false, false, false⟩
        cpu := { s.cpu with
          pc := s.cpu.pc + BitVec.ofNat 16 len
          r := if prefixed then incRefresh r1 else r1
          eiDelay := false
          pfx := if first = 0xDD then .ix else if first = 0xFD then .iy else .none } }
    step s =
      andThen (exec i fetched) fun t =>
        andThen ((t.setPfx .none).counterAdvance t.cycles |>.syncAdvance t.cycles) fun u =>
          .next { u with ev := { u.ev with inWindow := u.inWindow } }

/-- The rules R145 state this. IncR leaves bit 7 of R and adds one modulo 128 to its low seven bits. The bytes of an
instruction count one M1 fetch without prefix and two with CB, ED, an index prefix or an indexed CB pair, an extra ignored
index prefix one more. -/
def Obligations.RefreshCounterKeepsBitSeven : Prop :=
  (∀ r : Byte, (incRefresh r).getLsbD 7 = r.getLsbD 7 ∧ (incRefresh r).toNat % 128 = (r.toNat + 1) % 128) ∧
  (∀ (op : Byte) (rest : List Byte) (len : Nat), 1 ≤ len →
    m1Fetches (op :: rest) len =
      if (op = 0xCB ∨ op = 0xED ∨ op = 0xDD ∨ op = 0xFD) ∧ 2 ≤ len then 2 else 1) ∧
  (∀ s : State, s.nmiEntry.cpu.r = incRefresh s.cpu.r ∧ s.intEntry.cpu.r = incRefresh s.cpu.r) ∧
  (∀ (s : State) (n : Nat), (s.incRTimes (n + 1)).cpu.r = incRefresh (s.incRTimes n).cpu.r)

/-- Derived from 40_interpreter_step.md (R150, R151, R152, R155, R156); 47_ula_raster_sync.md section 1. In a well-formed
state with no interrupt due, colour and UDG off, DRAW = h and, at PC, an address at or above the threshold holding a byte b
with bit 6 clear: stepCpu completes in 4 T-states; of the register file only PC (+1), R, EI_DELAY and PFX change; memory, the
pool, the raster and all other buffers are as before; and each pixel of the draw buffer at columns bx to bx+7 of row by takes
its bit of the pattern byte at ((I and 0xFE) << 8) | (b[5:0] << 3) | ROW, inverted when b has bit 7, every other pixel as
before. -/
def Obligations.VideoByteStep : Prop :=
  ∀ (s : State) (h : Nat) (b : Byte), Inv s → s.draw = some h → s.ula.nmiPending = false → s.intSample = false →
    s.cfg.udg = false → s.cfg.colour = false → b = s.memRead s.cpu.pc → b.getLsbD 6 = false →
    (if s.cfg.m1not then 0xC000 else 0x8000) ≤ s.cpu.pc.toNat →
    let code := (b.toNat % 64) * 8 + s.ula.row.toNat
    let pat := s.memRead (BitVec.ofNat 16 (s.cpu.i.toNat / 2 * 512 + code))
    let pix := if b.getLsbD 7 then ~~~pat else pat
    let bx : Int := s.ula.rasterX.toInt + s.cfg.pixOffsetX - s.cfg.winX0
    let by0 : Int := s.ula.rasterY.toInt - s.cfg.winY0
    ∃ m : List Memory,
      s.stepCpu = .next
        { s with
          cpu := { s.cpu with pc := s.cpu.pc + 1, r := incRefresh s.cpu.r, eiDelay := false, pfx := .none }
          pix := m
          cycles := 4 } ∧
      m.length = s.pix.length ∧ (∀ k, k ≠ h → m.getD k [] = s.pix.getD k []) ∧
      ∀ x y : Nat, x < s.cfg.bufW → y < s.cfg.bufH →
        (m.getD h []).pixel s.cfg.stride x y =
          if (y : Int) = by0 ∧ bx ≤ x ∧ (x : Int) < bx + 8 then pix.getLsbD (7 - ((x : Int) - bx).toNat)
          else (s.pix.getD h []).pixel s.cfg.stride x y

/-- The rules R805 state this. Whenever NMI_PENDING is set, stepCpu is the NMI entry: NMI_PENDING, HALTED, IFF1 and EI_DELAY
are cleared, IFF2 and every other register kept, R counted once, PC (past the HALT when halted) pushed high byte first, SP
lowered by 2, PC = 0x0066, 11 T-states, and nothing else changes. -/
def Obligations.NmiEntryTaken : Prop :=
  ∀ s : State, s.ula.nmiPending = true →
    let pc := if s.cpu.halted then s.cpu.pc + 1 else s.cpu.pc
    ∃ m, s.stepCpu = .next
        { s with
          ula := { s.ula with nmiPending := false }
          cpu := { s.cpu with
            halted := false, iff1 := false, eiDelay := false, r := incRefresh s.cpu.r, sp := s.cpu.sp - 2, pc := 0x0066 }
          phys := m
          cycles := 11 } ∧
      WroteTwo s m (s.cpu.sp - 1) (pc.extractLsb' 8 8) (s.cpu.sp - 2) (pc.extractLsb' 0 8)

/-- The rules R806, R809, R810, R811, R812 state this. IntSample holds exactly when IFF1 = 1, EI_DELAY = 0, INT_GEN = 1 and
bit 6 of ((R mod 128) - 1) mod 128 is 0. With NMI_PENDING clear and IntSample true, stepCpu is the maskable entry: HALTED,
IFF1 and IFF2 cleared, R counted once, variant B sets L2 and restarts L2_LEN (variant A nothing), PC (past the HALT when
halted) pushed; modes 0 and 1 go to 0x0038 in 13 T-states, mode 2 to the word at I ++ 0xFF, read after the push, in 19;
nothing else changes. -/
def Obligations.MaskableInterruptEntered : Prop :=
  (∀ s : State, s.intSample = true ↔
    (s.cpu.iff1 = true ∧ s.cpu.eiDelay = false ∧ s.ula.intGen = true ∧ ((s.cpu.r.toNat % 128 + 127) % 128) / 64 % 2 = 0)) ∧
  (∀ s : State, s.ula.nmiPending = false → s.intSample = true →
    let pc := if s.cpu.halted then s.cpu.pc + 1 else s.cpu.pc
    let vector : Word := s.cpu.i ++ (0xFF : Byte)
    ∃ t, s.stepCpu = .next t ∧
      t = { s with ula := t.ula, cpu := t.cpu, phys := t.phys, cycles := t.cycles } ∧
      WroteTwo s t.phys (s.cpu.sp - 1) (pc.extractLsb' 8 8) (s.cpu.sp - 2) (pc.extractLsb' 0 8) ∧
      t.ula = (if s.cfg.machine = .ffVariant then { s.ula with l2 := true, l2Len := 0 } else s.ula) ∧
      t.cycles = (if s.cpu.im = .im2 then 19 else 13) ∧
      t.cpu = { s.cpu with
        halted := false, iff1 := false, iff2 := false, r := incRefresh s.cpu.r, sp := s.cpu.sp - 2
        pc := if s.cpu.im = .im2 then t.memRead (vector + 1) ++ t.memRead vector else 0x0038 })

/-- The rules R71, R73, R74 state this. For every state, address, byte and address read afterwards: the read gives the written
byte when the page written is writable and the address read names the same physical byte (PT[addr[15:10]].base + addr[9:0]),
and the old byte otherwise; a write changes nothing but PHYS, and PHYS nowhere else; a read of an address is the byte of PHYS
there. -/
def Obligations.MemoryReadAfterWrite : Prop :=
  ∀ (s : State) (a b : Word) (v : Byte),
    let place := fun c : Word => (s.pt[c.toNat / 1024]'(by have := c.isLt; omega)).base + c.toNat % 1024
    let writable := (s.pt[a.toNat / 1024]'(by have := a.isLt; omega)).writable
    s.memRead b = s.phys.read (place b) ∧
    (s.memWrite a v).memRead b = (if writable = true ∧ place b = place a then v else s.memRead b) ∧
    (writable = false → s.memWrite a v = s) ∧
    s.memWrite a v = { s with phys := (s.memWrite a v).phys } ∧
    ∀ p, p ≠ place a → (s.memWrite a v).phys.read p = s.phys.read p

/-- The rules R77 state this. MemRead(addr, 2) joins the bytes at addr (low) and (addr + 1) mod 65536 (high); MemWrite(addr,
2, v) writes the low byte at addr and then the high byte at (addr + 1) mod 65536, each through the page table on its own; at
0xFFFF the second byte is at 0x0000. -/
def Obligations.WordAccessIsLittleEndian : Prop :=
  (∀ (s : State) (a : Word),
    (s.memRead16 a).toNat = (s.memRead a).toNat + 256 * (s.memRead (BitVec.ofNat 16 ((a.toNat + 1) % 65536))).toNat) ∧
  (∀ (s : State) (a w : Word),
    WroteTwo s (s.memWrite16 a w).phys a (BitVec.ofNat 8 (w.toNat % 256)) (BitVec.ofNat 16 ((a.toNat + 1) % 65536))
      (BitVec.ofNat 8 (w.toNat / 256)) ∧
    s.memWrite16 a w = { s with phys := (s.memWrite16 a w).phys }) ∧
  (∀ s : State, s.memRead16 0xFFFF = s.memRead 0x0000 ++ s.memRead 0xFFFF)

/-- The rules R201, R202, R203, R204, R209, R210, R211 state this. LD r,r2; LD r,n; LD r,(HL); LD r,(IX+d) and (IY+d); LD
A,(BC); LD A,(DE); LD A,(nn): the register takes the value named (memory read at the old registers; under an index prefix H
and L are themselves), in 4, 7, 7, 19, 7, 7 and 13 T-states, and nothing else changes, no flag either. -/
def Obligations.LoadByteIntoRegister : Prop :=
  ∀ (s : State) (r r2 : Reg8) (n d : Byte) (nn : Word) (x : Idx),
    Gives (.ldRR r r2) s (s.cpu.setReg r (s.cpu.reg r2)) 4 ∧
    Gives (.ldRN r n) s (s.cpu.setReg r n) 7 ∧
    Gives (.ldRAtHl r) s (s.cpu.setReg r (s.memRead (s.cpu.h ++ s.cpu.l))) 7 ∧
    Gives (.ldRAtIdx x r d) s (s.cpu.setReg r (s.memRead (s.cpu.idx x + d.signExtend 16))) 19 ∧
    Gives .ldAAtBc s { s.cpu with a := s.memRead (s.cpu.b ++ s.cpu.c) } 7 ∧
    Gives .ldAAtDe s { s.cpu with a := s.memRead (s.cpu.d ++ s.cpu.e) } 7 ∧
    Gives (.ldAAtNn nn) s { s.cpu with a := s.memRead nn } 13 ∧
    ((s.cpu.setReg r n).reg r = n ∧ (r2 ≠ r → (s.cpu.setReg r n).reg r2 = s.cpu.reg r2))

/-- The rules R205, R206, R207, R208, R212, R213, R214 state this. LD (HL),r; LD (IX+d),r; LD (HL),n; LD (IX+d),n; LD (BC),A;
LD (DE),A; LD (nn),A: the byte is stored at the address named, discarded when the page is not writable; every other byte,
every register and every flag is as before; 7, 19, 10, 19, 7, 7 and 13 T-states. -/
def Obligations.StoreByte : Prop :=
  ∀ (s : State) (r : Reg8) (n d : Byte) (nn : Word) (x : Idx),
    Stores (.ldAtHlR r) s s.cpu 7 (s.cpu.h ++ s.cpu.l) (s.cpu.reg r) ∧
    Stores (.ldAtIdxR x r d) s s.cpu 19 (s.cpu.idx x + d.signExtend 16) (s.cpu.reg r) ∧
    Stores (.ldAtHlN n) s s.cpu 10 (s.cpu.h ++ s.cpu.l) n ∧
    Stores (.ldAtIdxN x d n) s s.cpu 19 (s.cpu.idx x + d.signExtend 16) n ∧
    Stores .ldAtBcA s s.cpu 7 (s.cpu.b ++ s.cpu.c) s.cpu.a ∧
    Stores .ldAtDeA s s.cpu 7 (s.cpu.d ++ s.cpu.e) s.cpu.a ∧
    Stores (.ldAtNnA nn) s s.cpu 13 nn s.cpu.a

/-- The rules R215, R216, R217, R218 state this. LD A,I and LD A,R: A takes the register (R with the two counts of the fetch
already made), S, Z, X, Y from the value, H and N zero, P/V takes IFF2, C unchanged; LD I,A and LD R,A: the register takes A,
no flag changes; 9 T-states each and nothing else changes. -/
def Obligations.LoadInterruptAndRefresh : Prop :=
  ∀ s : State,
    AccResult .ldAI s 9 s.cpu.i (fun f => FlagsAre f (s.cpu.i.getLsbD 7) (s.cpu.i == 0) (s.cpu.i.getLsbD 5) false
      (s.cpu.i.getLsbD 3) s.cpu.iff2 false (s.cpu.f.getLsbD 0)) ∧
    AccResult .ldARefresh s 9 s.cpu.r (fun f => FlagsAre f (s.cpu.r.getLsbD 7) (s.cpu.r == 0) (s.cpu.r.getLsbD 5) false
      (s.cpu.r.getLsbD 3) s.cpu.iff2 false (s.cpu.f.getLsbD 0)) ∧
    Gives .ldIA s { s.cpu with i := s.cpu.a } 9 ∧ Gives .ldRefreshA s { s.cpu with r := s.cpu.a } 9

/-- The rules R220, R221, R222, R223, R224, R225, R226, R227, R228, R229 state this. LD dd,nn; LD IX,nn; LD HL,(nn); LD
dd,(nn); LD IX,(nn); LD SP,HL; LD SP,IX (and IY): the destination takes the word (from memory low byte first), in 10, 14, 16,
20, 20, 6 and 10 T-states; LD (nn),HL; LD (nn),dd; LD (nn),IX: the low byte is stored at nn, then the high byte at nn + 1,
each discarded on a read-only page, in 16, 20 and 20; nothing else changes; a pair written is its two registers, high byte
first. -/
def Obligations.SixteenBitLoads : Prop :=
  ∀ (s : State) (p q : Pair) (nn : Word) (x : Idx),
    Gives (.ldPairNn p nn) s (s.cpu.setPair p nn) 10 ∧
    Gives (.ldIdxNn x nn) s (s.cpu.setIdx x nn) 14 ∧
    Gives (.ldHlAtNn nn) s { s.cpu with h := s.memRead (nn + 1), l := s.memRead nn } 16 ∧
    Gives (.ldPairAtNn p nn) s (s.cpu.setPair p (wordIn s nn)) 20 ∧
    Gives (.ldIdxAtNn x nn) s (s.cpu.setIdx x (wordIn s nn)) 20 ∧
    Gives .ldSpHl s { s.cpu with sp := s.cpu.h ++ s.cpu.l } 6 ∧
    Gives (.ldSpIdx x) s { s.cpu with sp := s.cpu.idx x } 10 ∧
    StoresTwo (.ldAtNnHl nn) s s.cpu 16 nn s.cpu.l (nn + 1) s.cpu.h ∧
    StoresWord (.ldAtNnPair p nn) s s.cpu 20 nn (s.cpu.pair p) ∧
    StoresWord (.ldAtNnIdx x nn) s s.cpu 20 nn (s.cpu.idx x) ∧
    (s.cpu.setPair p nn).pair q = (if q = p then nn else s.cpu.pair q) ∧
    s.cpu.setPair .bc nn = { s.cpu with b := BitVec.ofNat 8 (nn.toNat / 256), c := BitVec.ofNat 8 (nn.toNat % 256) }

/-- The rules R78, R230, R231, R232, R233 state this. PUSH stores the high byte at SP - 1 and then the low byte at SP - 2 and
lowers SP by 2, all modulo 65536, discarded bytes included; POP takes the word at SP (low) and SP + 1 (high) and raises SP by
2, POP AF all eight bits of F; 11, 15, 10 and 14 T-states, nothing else changes. Popping after a push of a word onto two
different writable bytes gives the word and the old SP back. -/
def Obligations.PushAndPop : Prop :=
  (∀ (s : State) (q : StackPair) (x : Idx),
    Pushes (.pushPair q) s s.cpu 11 (s.cpu.stackPair q) ∧ Pushes (.pushIdx x) s s.cpu 15 (s.cpu.idx x) ∧
    Gives (.popPair q) s ({ s.cpu with sp := s.cpu.sp + 2 }.setStackPair q (wordIn s s.cpu.sp)) 10 ∧
    Gives (.popIdx x) s ({ s.cpu with sp := s.cpu.sp + 2 }.setIdx x (wordIn s s.cpu.sp)) 14 ∧
    Gives (.popPair .af) s { s.cpu with sp := s.cpu.sp + 2, f := s.memRead s.cpu.sp, a := s.memRead (s.cpu.sp + 1) } 10) ∧
  (∀ (s : State) (w : Word), (s.entry (s.cpu.sp - 1)).writable = true → (s.entry (s.cpu.sp - 2)).writable = true →
    s.physAddr (s.cpu.sp - 1) ≠ s.physAddr (s.cpu.sp - 2) →
    (s.push16 w).popWord = w ∧ (s.push16 w).popped.cpu = s.cpu)

/-- The rules R239, R240, R241, R242, R243 state this. EX DE,HL; EX AF,AF2; EXX swap the registers named and change nothing
else, in 4 T-states; EX (SP),HL and EX (SP),IX or IY store the register at SP (low byte, then high byte) and give it the old
word there, SP unchanged, in 19 and 23 T-states, also where the stack page is read-only. -/
def Obligations.ExchangeRegisters : Prop :=
  ∀ (s : State) (x : Idx),
    Gives .exDeHl s { s.cpu with d := s.cpu.h, e := s.cpu.l, h := s.cpu.d, l := s.cpu.e } 4 ∧
    Gives .exAfAf s { s.cpu with a := s.cpu.a2, f := s.cpu.f2, a2 := s.cpu.a, f2 := s.cpu.f } 4 ∧
    Gives .exx s { s.cpu with
      b := s.cpu.b2, c := s.cpu.c2, d := s.cpu.d2, e := s.cpu.e2, h := s.cpu.h2, l := s.cpu.l2
      b2 := s.cpu.b, c2 := s.cpu.c, d2 := s.cpu.d, e2 := s.cpu.e, h2 := s.cpu.h, l2 := s.cpu.l } 4 ∧
    StoresTwo .exAtSpHl s { s.cpu with l := s.memRead s.cpu.sp, h := s.memRead (s.cpu.sp + 1) } 19 s.cpu.sp s.cpu.l
      (s.cpu.sp + 1) s.cpu.h ∧
    StoresWord (.exAtSpIdx x) s (s.cpu.setIdx x (wordIn s s.cpu.sp)) 23 s.cpu.sp (s.cpu.idx x)

/-- The rules R244, R245, R246, R247 state this. Each stores the byte at HL to DE, moves HL and DE by +1 (LDI, LDIR) or -1
(LDD, LDDR) and BC by -1 modulo 65536; S, Z, C unchanged, H and N zero, P/V set when the new BC is not zero, X and Y bits 3
and 1 of A plus the byte; 16 T-states; the repeating forms put PC back by 2 and take 21 T-states while the new BC is not zero.
Nothing else changes. -/
def Obligations.BlockTransfer : Prop :=
  ∀ s : State,
    let t := s.memRead (s.cpu.h ++ s.cpu.l)
    let bc : Word := (s.cpu.b ++ s.cpu.c) - 1
    let n := t + s.cpu.a
    let after := fun (step : Word) (again : Bool) (f : Byte) =>
      { ((s.cpu.setPair .hl ((s.cpu.h ++ s.cpu.l) + step)).setPair .de ((s.cpu.d ++ s.cpu.e) + step)).setPair .bc bc with
        f := f
        pc := if again then s.cpu.pc - 2 else s.cpu.pc }
    let moves := fun (i : Instr) (step : Word) (repeats : Bool) =>
      ∃ f, Stores i s (after step (repeats && bc != 0) f) (if repeats && bc != 0 then 21 else 16) (s.cpu.d ++ s.cpu.e) t ∧
        FlagsAre f (s.cpu.f.getLsbD 7) (s.cpu.f.getLsbD 6) (n.getLsbD 1) false (n.getLsbD 3) (bc != 0) false (s.cpu.f.getLsbD 0)
    moves .ldi 1 false ∧ moves .ldd (-1) false ∧ moves .ldir 1 true ∧ moves .lddr (-1) true

/-- The rules R248, R249, R250, R251 state this. Each compares A with the byte at HL, moves HL by +1 or -1 and BC by -1; S and
Z from the difference, H the borrow from bit 4, P/V set when the new BC is not zero, N set, C unchanged, X and Y bits 3 and 1
of the difference less H; A and memory unchanged; 16 T-states; the repeating forms put PC back by 2 and take 21 while the new
BC is not zero and there is no match. -/
def Obligations.BlockSearch : Prop :=
  ∀ s : State,
    let t := s.memRead (s.cpu.h ++ s.cpu.l)
    let res := s.cpu.a - t
    let half := decide (s.cpu.a.toNat % 16 < t.toNat % 16)
    let bc : Word := (s.cpu.b ++ s.cpu.c) - 1
    let n := if half then res - 1 else res
    let searches := fun (i : Instr) (step : Word) (repeats : Bool) =>
      let again := repeats && bc != 0 && res != 0
      ∃ f, Gives i s
          { (s.cpu.setPair .hl ((s.cpu.h ++ s.cpu.l) + step)).setPair .bc bc with
            f := f
            pc := if again then s.cpu.pc - 2 else s.cpu.pc }
          (if again then 21 else 16) ∧
        FlagsAre f (res.getLsbD 7) (res == 0) (n.getLsbD 1) half (n.getLsbD 3) (bc != 0) true (s.cpu.f.getLsbD 0)
    searches .cpi 1 false ∧ searches .cpd (-1) false ∧ searches .cpir 1 true ∧ searches .cpdr (-1) true

/-- The rules R34, R300, R301, R302 state this. For ADD A,v and ADC A,v with v a register, an immediate, (HL), (IX+d), (IY+d)
or an index half: A takes A + v (+ carry) modulo 256, all eight flags as ADD8 gives them (overflow when the operands have one
sign and the result the other, half carry out of bit 3, carry out of bit 7), in 4, 7, 7, 19 or 8 T-states, and nothing else
changes. -/
def Obligations.AdditionToAccumulator : Prop :=
  ∀ (s : State) (i : Instr) (v : Byte) (n : Nat),
    (AccForm .addAR .addAN .addAAtHl .addAAtIdx .addAHalf s i v n → AccResult i s n (s.cpu.a + v) (AddFlags s.cpu.a v false)) ∧
    (AccForm .adcAR .adcAN .adcAAtHl .adcAAtIdx .adcAHalf s i v n →
      AccResult i s n (s.cpu.a + v + BitVec.ofNat 8 (s.cpu.f.getLsbD 0).toNat) (AddFlags s.cpu.a v (s.cpu.f.getLsbD 0)))

/-- The rules R35, R300, R303, R304, R308 state this. SUB v and SBC A,v: A takes A - v (- carry) modulo 256, all eight flags
as SUB8 gives them (overflow when the operands differ in sign and the result has the sign of v, half borrow, borrow, N set);
CP v: the flags of SUB but X and Y from v, A unchanged; v in every form and the T-states of R300 (8 for an index half);
nothing else changes. -/
def Obligations.SubtractionAndComparison : Prop :=
  ∀ (s : State) (i : Instr) (v : Byte) (n : Nat),
    (AccForm .subR .subN .subAtHl .subAtIdx .subHalf s i v n → AccResult i s n (s.cpu.a - v) (SubFlags s.cpu.a v false)) ∧
    (AccForm .sbcAR .sbcAN .sbcAAtHl .sbcAAtIdx .sbcAHalf s i v n →
      AccResult i s n (s.cpu.a - v - BitVec.ofNat 8 (s.cpu.f.getLsbD 0).toNat) (SubFlags s.cpu.a v (s.cpu.f.getLsbD 0))) ∧
    (AccForm .cpR .cpN .cpAtHl .cpAtIdx .cpHalf s i v n → AccResult i s n s.cpu.a fun f =>
      FlagsAre f ((s.cpu.a - v).getLsbD 7) (s.cpu.a == v) (v.getLsbD 5) (decide (s.cpu.a.toNat % 16 < v.toNat % 16))
        (v.getLsbD 3) (s.cpu.a.getLsbD 7 != v.getLsbD 7 && (s.cpu.a - v).getLsbD 7 == v.getLsbD 7) true
        (decide (s.cpu.a.toNat < v.toNat)))

/-- The rules R36, R305, R306, R307 state this. A takes the bitwise result; S, Z, X, Y and parity from it; H set by AND and
cleared by XOR and OR; N and C cleared; v in every form and the T-states of R300 (8 for an index half); nothing else changes.
-/
def Obligations.LogicOnAccumulator : Prop :=
  ∀ (s : State) (i : Instr) (v : Byte) (n : Nat),
    (AccForm .andR .andN .andAtHl .andAtIdx .andHalf s i v n →
      AccResult i s n (s.cpu.a &&& v) (ResultFlags (s.cpu.a &&& v) true false false)) ∧
    (AccForm .xorR .xorN .xorAtHl .xorAtIdx .xorHalf s i v n →
      AccResult i s n (s.cpu.a ^^^ v) (ResultFlags (s.cpu.a ^^^ v) false false false)) ∧
    (AccForm .orR .orN .orAtHl .orAtIdx .orHalf s i v n →
      AccResult i s n (s.cpu.a ||| v) (ResultFlags (s.cpu.a ||| v) false false false))

/-- Derived from 10_state.md (R34, R35); 42_arithmetic.md (R300, R348). For all operands and carries: after ADD8 the result
read as a signed number is the sum of the signed operands and the carry exactly when P/V is 0, and likewise the difference
after SUB8; the unsigned result is exact exactly when C is 0. -/
def Obligations.OverflowFlagIsSignedOverflow : Prop :=
  ∀ (a b : Byte) (c : Bool),
    ((add8 a b c).1.toInt = a.toInt + b.toInt + c.toInt ↔ (add8 a b c).2.getLsbD 2 = false) ∧
    ((add8 a b c).1.toNat = a.toNat + b.toNat + c.toNat ↔ (add8 a b c).2.getLsbD 0 = false) ∧
    ((sub8 a b c).1.toInt = a.toInt - b.toInt - c.toInt ↔ (sub8 a b c).2.getLsbD 2 = false) ∧
    (((sub8 a b c).1.toNat : Int) = (a.toNat : Int) - b.toNat - c.toInt ↔ (sub8 a b c).2.getLsbD 0 = false)

/-- The rules R37, R310, R311, R312, R313, R314, R315, R554 state this. The operand takes its value plus or minus one modulo
256 (a memory byte is discarded on a read-only page, an index half leaves the other half); S, Z, X, Y from the result, H on a
carry out of or borrow into the low nibble, P/V when the old value was 0x7F or 0x80, N cleared or set, C unchanged; 4, 11, 23
and 8 T-states; nothing else changes. -/
def Obligations.IncrementAndDecrementByte : Prop :=
  ∀ (s : State) (r : Reg8) (x : Idx) (d : Byte) (hf : Half),
    let m := s.memRead s.cpu.hl
    let e := s.memRead (s.cpu.idxAddr x d)
    let hv := s.cpu.half x hf
    (∃ f, Gives (.incR r) s { s.cpu.setReg r (s.cpu.reg r + 1) with f := f } 4 ∧ IncFlags s.cpu.f (s.cpu.reg r) f) ∧
    (∃ f, Stores .incAtHl s { s.cpu with f := f } 11 s.cpu.hl (m + 1) ∧ IncFlags s.cpu.f m f) ∧
    (∃ f, Stores (.incAtIdx x d) s { s.cpu with f := f } 23 (s.cpu.idxAddr x d) (e + 1) ∧ IncFlags s.cpu.f e f) ∧
    (∃ f, Gives (.incHalf x hf) s { s.cpu.setHalf x hf (hv + 1) with f := f } 8 ∧ IncFlags s.cpu.f hv f) ∧
    (∃ f, Gives (.decR r) s { s.cpu.setReg r (s.cpu.reg r - 1) with f := f } 4 ∧ DecFlags s.cpu.f (s.cpu.reg r) f) ∧
    (∃ f, Stores .decAtHl s { s.cpu with f := f } 11 s.cpu.hl (m - 1) ∧ DecFlags s.cpu.f m f) ∧
    (∃ f, Stores (.decAtIdx x d) s { s.cpu with f := f } 23 (s.cpu.idxAddr x d) (e - 1) ∧ DecFlags s.cpu.f e f) ∧
    (∃ f, Gives (.decHalf x hf) s { s.cpu.setHalf x hf (hv - 1) with f := f } 8 ∧ DecFlags s.cpu.f hv f)

/-- The rules R320 state this. DAA adds or (N set) subtracts 6 when H is set or the low digit exceeds 9, and 0x60 when C is
set or A exceeds 0x99; S, Z, X, Y, parity from the result, N unchanged, C set when 0x60 was used, H as R320 computes it; 4
T-states, nothing else changes. For packed decimal m, n up to 99, ADD A,n then DAA leaves the packed decimal of (m + n) mod
100 with C set exactly when m + n exceeds 99, and SUB n then DAA that of (m - n) mod 100 with C set exactly when m < n. -/
def Obligations.DecimalAdjust : Prop :=
  (∀ s : State,
    let a := s.cpu.a.toNat
    let h := s.cpu.f.getLsbD 4
    let sub := s.cpu.f.getLsbD 1
    let low := h || decide (9 < a % 16)
    let high := s.cpu.f.getLsbD 0 || decide (0x99 < a)
    let corr : Byte := BitVec.ofNat 8 ((if low then 6 else 0) + (if high then 0x60 else 0))
    let res := if sub then s.cpu.a - corr else s.cpu.a + corr
    AccResult .daa s 4 res
      (ResultFlags res (if sub then h && decide (a % 16 < 6) else decide (9 < a % 16)) sub high)) ∧
  (∀ (s : State) (m n : Nat), m < 100 → n < 100 →
    let packed := fun k : Nat => (BitVec.ofNat 8 (k / 10 * 16 + k % 10) : Byte)
    s.cpu.a = packed m →
    (∃ t, andThen (exec (.addAN (packed n)) s) (exec .daa) = .next t ∧
      t.cpu.a = packed ((m + n) % 100) ∧ t.cpu.f.getLsbD 0 = decide (99 < m + n)) ∧
    (∃ t, andThen (exec (.subN (packed n)) s) (exec .daa) = .next t ∧
      t.cpu.a = packed ((m + 100 - n) % 100) ∧ t.cpu.f.getLsbD 0 = decide (m < n)))

/-- Derived from 42_arithmetic.md section 3 (R321 to R324); 46_undocumented_forms.md (R561). CPL complements A, sets H and N,
X and Y from A, the rest of F unchanged; NEG and its mirrors give 0 - A with the flags of SUB8; CCF inverts C with H the old C
and N cleared, SCF sets C with H and N cleared, S, Z and P/V unchanged, and X, Y take the value of the free byte drawn; 4, 8,
4 and 4 T-states; nothing else changes but the count of free values drawn. The rules let X and Y of CCF and SCF be any value:
that they are two bits of one free byte, and that the draw is counted, is the model's choice (log entry 7). -/
def Obligations.ComplementNegateAndCarry : Prop :=
  ∀ (s : State) (v : BitVec 3),
    let g := s.cpu.f
    let na := s.cpu.a ^^^ 0xFF
    let any := Config.freeByte s.freeCount
    AccResult .cpl s 4 na (fun f =>
      FlagsAre f (g.getLsbD 7) (g.getLsbD 6) (na.getLsbD 5) true (na.getLsbD 3) (g.getLsbD 2) true (g.getLsbD 0)) ∧
    AccResult .neg s 8 (0 - s.cpu.a) (SubFlags 0 s.cpu.a false) ∧
    AccResult (.negMirror v) s 8 (0 - s.cpu.a) (SubFlags 0 s.cpu.a false) ∧
    (∀ f, SubFlags 0 s.cpu.a false f → (f.getLsbD 2 = true ↔ s.cpu.a = 0x80) ∧ (f.getLsbD 0 = true ↔ s.cpu.a ≠ 0)) ∧
    (∃ f, exec .ccf s = .next { s with cpu := { s.cpu with f := f }, cycles := 4, freeCount := s.freeCount + 1 } ∧
      FlagsAre f (g.getLsbD 7) (g.getLsbD 6) (any.getLsbD 5) (g.getLsbD 0) (any.getLsbD 3) (g.getLsbD 2) false
        (!g.getLsbD 0)) ∧
    (∃ f, exec .scf s = .next { s with cpu := { s.cpu with f := f }, cycles := 4, freeCount := s.freeCount + 1 } ∧
      FlagsAre f (g.getLsbD 7) (g.getLsbD 6) (any.getLsbD 5) false (any.getLsbD 3) (g.getLsbD 2) false true)

/-- The rules R325, R326, R327, R328, R329, R330, R331, R563, R565 state this. NOP changes nothing in 4 T-states, the ED
no-ops nothing in 8; HALT puts PC back on its opcode and sets HALTED; DI clears both flip-flops; EI sets both and EI_DELAY; IM
0, 1, 2 and the mirrors ED 4E, 66, 6E (mode 0), ED 76 (mode 1), ED 7E (mode 2) set the mode in 8 T-states; no flag changes. -/
def Obligations.CpuControl : Prop :=
  ∀ (s : State) (w : Byte),
    Gives .nop s s.cpu 4 ∧ Gives .halt s { s.cpu with pc := s.cpu.pc - 1, halted := true } 4 ∧
    Gives .di s { s.cpu with iff1 := false, iff2 := false } 4 ∧
    Gives .ei s { s.cpu with iff1 := true, iff2 := true, eiDelay := true } 4 ∧
    Gives .im0 s { s.cpu with im := .im0 } 8 ∧ Gives .im1 s { s.cpu with im := .im1 } 8 ∧
    Gives .im2 s { s.cpu with im := .im2 } 8 ∧ Gives .im0Mirror4E s { s.cpu with im := .im0 } 8 ∧
    Gives .im0Mirror66 s { s.cpu with im := .im0 } 8 ∧ Gives .im0Mirror6E s { s.cpu with im := .im0 } 8 ∧
    Gives .im1Mirror s { s.cpu with im := .im1 } 8 ∧ Gives .im2Mirror s { s.cpu with im := .im2 } 8 ∧
    Gives .nopEd77 s s.cpu 8 ∧ Gives .nopEd7F s s.cpu 8 ∧ Gives (.nopEdUndefined w) s s.cpu 8

/-- The rules R340, R341, R342, R343 state this. The 16-bit sum or difference modulo 65536 (with the carry for ADC and SBC)
goes to HL, or to the index register for ADD IX and ADD IY; ADD leaves S, Z, P/V, clears N, H is the carry out of bit 11, C
out of bit 15, X and Y from the high byte; ADC and SBC write all eight flags, Z of all 16 bits, P/V the 16-bit signed
overflow; 11, 15, 15 and 15 T-states; nothing else changes. -/
def Obligations.SixteenBitArithmetic : Prop :=
  ∀ (s : State) (p : Pair) (x : Idx) (q : IdxPair),
    let g := s.cpu.f
    let c := g.getLsbD 0
    let cw : Word := BitVec.ofNat 16 c.toNat
    let added := fun (a b : Word) (f : Byte) =>
      FlagsAre f (g.getLsbD 7) (g.getLsbD 6) ((a + b).getLsbD 13) (decide (0xFFF < a.toNat % 0x1000 + b.toNat % 0x1000))
        ((a + b).getLsbD 11) (g.getLsbD 2) false (decide (0xFFFF < a.toNat + b.toNat))
    let a := s.cpu.hl
    let b := s.cpu.pair p
    let sum := a + b + cw
    let dif := a - b - cw
    (∃ f, Gives (.addHlPair p) s { s.cpu.setHl (a + b) with f := f } 11 ∧ added a b f) ∧
    (∃ f, Gives (.addIdxPair x q) s { s.cpu.setIdx x (s.cpu.idx x + s.cpu.idxPair x q) with f := f } 15 ∧
      added (s.cpu.idx x) (s.cpu.idxPair x q) f) ∧
    (∃ f, Gives (.adcHlPair p) s { s.cpu.setHl sum with f := f } 15 ∧
      FlagsAre f (sum.getLsbD 15) (sum == 0) (sum.getLsbD 13)
        (decide (0xFFF < a.toNat % 0x1000 + b.toNat % 0x1000 + c.toNat)) (sum.getLsbD 11)
        (decide (sum.toInt ≠ a.toInt + b.toInt + c.toInt)) false (decide (0xFFFF < a.toNat + b.toNat + c.toNat))) ∧
    (∃ f, Gives (.sbcHlPair p) s { s.cpu.setHl dif with f := f } 15 ∧
      FlagsAre f (dif.getLsbD 15) (dif == 0) (dif.getLsbD 13)
        (decide (a.toNat % 0x1000 < b.toNat % 0x1000 + c.toNat)) (dif.getLsbD 11)
        (decide (dif.toInt ≠ a.toInt - b.toInt - c.toInt)) true (decide (a.toNat < b.toNat + c.toNat)))

/-- The rules R344, R345, R346, R347 state this. The pair or index register takes its value plus or minus one modulo 65536, in
6 or 10 T-states; no flag changes, also on a wrap, and nothing else does. -/
def Obligations.IncrementAndDecrementWord : Prop :=
  ∀ (s : State) (p : Pair) (x : Idx),
    Gives (.incPair p) s (s.cpu.setPair p (BitVec.ofNat 16 ((s.cpu.pair p).toNat + 1))) 6 ∧
    Gives (.decPair p) s (s.cpu.setPair p (BitVec.ofNat 16 ((s.cpu.pair p).toNat + 65535))) 6 ∧
    Gives (.incIdx x) s (s.cpu.setIdx x (BitVec.ofNat 16 ((s.cpu.idx x).toNat + 1))) 10 ∧
    Gives (.decIdx x) s (s.cpu.setIdx x (BitVec.ofNat 16 ((s.cpu.idx x).toNat + 65535))) 10

/-- The rules R401, R402, R403, R404 state this. A is rotated by one bit, through C for RLA and RRA; C takes the bit shifted
out, H and N are cleared, X and Y come from the new A, S, Z and P/V are unchanged; 4 T-states, nothing else changes. -/
def Obligations.RotateAccumulator : Prop :=
  ∀ s : State,
    let a := s.cpu.a.toNat
    let c := s.cpu.f.getLsbD 0
    let out := fun (res : Nat) (carry : Bool) (i : Instr) =>
      AccResult i s 4 (BitVec.ofNat 8 res) fun f =>
        FlagsAre f (s.cpu.f.getLsbD 7) (s.cpu.f.getLsbD 6) (res.testBit 5) false (res.testBit 3) (s.cpu.f.getLsbD 2) false carry
    out (a * 2 % 256 + a / 128) (decide (128 ≤ a)) .rlca ∧ out (a * 2 % 256 + c.toNat) (decide (128 ≤ a)) .rla ∧
    out (a / 2 + a % 2 * 128) (a % 2 == 1) .rrca ∧ out (a / 2 + c.toNat * 128) (a % 2 == 1) .rra

/-- The rules R400, R405, R406, R407, R408, R409, R410, R411, R555, R556 state this. RLC, RRC, RL, RR, SLA, SRA, SLL and SRL
of a register, (HL), (IX+d), and (IX+d) with a register copy: the operand takes the byte moved by one bit (as arithmetic on
its value), S, Z, X, Y and parity from it, H and N zero, C the bit shifted out; a memory byte is discarded on a read-only page
while flags and register copy are still written; 8, 15, 23 and 23 T-states; nothing else changes. -/
def Obligations.RotateAndShift : Prop :=
  ∀ s : State,
    let c := (s.cpu.f.getLsbD 0).toNat
    let byNat := fun (g : Nat → Nat) (v : Byte) => (BitVec.ofNat 8 (g v.toNat) : Byte)
    let left := fun (g : Nat → Nat) (v f : Byte) => ResultFlags (byNat g v) false false (v.getLsbD 7) f
    let right := fun (g : Nat → Nat) (v f : Byte) => ResultFlags (byNat g v) false false (v.getLsbD 0) f
    let rlc := fun v : Nat => v * 2 % 256 + v / 128
    let rl := fun v : Nat => v * 2 % 256 + c
    let sla := fun v : Nat => v * 2 % 256
    let sll := fun v : Nat => v * 2 % 256 + 1
    let rrc := fun v : Nat => v / 2 + v % 2 * 128
    let rr := fun v : Nat => v / 2 + c * 128
    let sra := fun v : Nat => v / 2 + v / 128 * 128
    let srl := fun v : Nat => v / 2
    BitForms .rlcR .rlcAtHl .rlcAtIdx .rlcAtIdxR (byNat rlc) (left rlc) s ∧
    BitForms .rlR .rlAtHl .rlAtIdx .rlAtIdxR (byNat rl) (left rl) s ∧
    BitForms .slaR .slaAtHl .slaAtIdx .slaAtIdxR (byNat sla) (left sla) s ∧
    BitForms .sllR .sllAtHl .sllAtIdx .sllAtIdxR (byNat sll) (left sll) s ∧
    BitForms .rrcR .rrcAtHl .rrcAtIdx .rrcAtIdxR (byNat rrc) (right rrc) s ∧
    BitForms .rrR .rrAtHl .rrAtIdx .rrAtIdxR (byNat rr) (right rr) s ∧
    BitForms .sraR .sraAtHl .sraAtIdx .sraAtIdxR (byNat sra) (right sra) s ∧
    BitForms .srlR .srlAtHl .srlAtIdx .srlAtIdxR (byNat srl) (right srl) s

/-- The rules R412, R413 state this. RLD moves the low digit of A into the low digit at (HL), the low digit there to the high
digit, and the high digit to the low digit of A; RRD the other way; the high digit of A stays; S, Z, X, Y, parity from the new
A, H and N zero, C unchanged; 18 T-states; nothing else changes. -/
def Obligations.DigitRotate : Prop :=
  ∀ s : State,
    let a := s.cpu.a.toNat
    let t := (s.memRead s.cpu.hl).toNat
    let rotated := fun (i : Instr) (na nt : Nat) =>
      ∃ f, Stores i s { s.cpu with a := BitVec.ofNat 8 na, f := f } 18 s.cpu.hl (BitVec.ofNat 8 nt) ∧
        ResultFlags (BitVec.ofNat 8 na) false false (s.cpu.f.getLsbD 0) f
    rotated .rld (a / 16 * 16 + t / 16) (t % 16 * 16 + a % 16) ∧
    rotated .rrd (a / 16 * 16 + t % 16) (a % 16 * 16 + t / 16)

/-- Derived from 43_rotate_shift_bit.md section 4 (R420 to R422); 46_undocumented_forms.md (R558). Z and P/V are set when the
bit is 0, S when bit 7 is tested and set, H set, N cleared, C unchanged; X and Y come from the register, from the high byte of
the indexed address, and are the free byte drawn for (HL); no register or byte is written, the mirrors' register field is
ignored; 8, 12 and 20 T-states. R421 leaves X and Y of BIT b,(HL) any value: that they are two bits of one free byte, and that
the draw is counted, is the model's choice (log entry 7). -/
def Obligations.BitTest : Prop :=
  ∀ (s : State) (b : BitVec 3) (r : Reg8) (x : Idx) (d : Byte),
    let tested := fun (v xy f : Byte) =>
      FlagsAre f (b == 7 && v.getLsbD 7) (!v.getLsbD b.toNat) (xy.getLsbD 5) true (xy.getLsbD 3) (!v.getLsbD b.toNat) false
        (s.cpu.f.getLsbD 0)
    let ea := s.cpu.idxAddr x d
    (∃ f, Gives (.bitR b r) s { s.cpu with f := f } 8 ∧ tested (s.cpu.reg r) (s.cpu.reg r) f) ∧
    (∃ f, exec (.bitAtHl b) s = .next { s with cpu := { s.cpu with f := f }, cycles := 12, freeCount := s.freeCount + 1 } ∧
      tested (s.memRead s.cpu.hl) (Config.freeByte s.freeCount) f) ∧
    (∃ f, Gives (.bitAtIdx x b d) s { s.cpu with f := f } 20 ∧ tested (s.memRead ea) (ea.extractLsb' 8 8) f) ∧
    (∃ f, Gives (.bitAtIdxMirror x b d r) s { s.cpu with f := f } 20 ∧ tested (s.memRead ea) (ea.extractLsb' 8 8) f)

/-- The rules R423, R424, R557 state this. SET b and RES b of a register, (HL), (IX+d), and (IX+d) with a register copy: bit b
of the operand becomes 1 or 0 and its other bits stay; no flag changes; a memory byte is discarded on a read-only page, the
register copy is still written; 8, 15, 23 and 23 T-states; nothing else changes. -/
def Obligations.SetAndResetBit : Prop :=
  (∀ (s : State) (b : BitVec 3),
    BitForms (.setR b) (.setAtHl b) (fun x d => .setAtIdx x b d) (fun x d r => .setAtIdxR x b d r) (setBit b)
      (fun _ f => f = s.cpu.f) s ∧
    BitForms (.resR b) (.resAtHl b) (fun x d => .resAtIdx x b d) (fun x d r => .resAtIdxR x b d r) (resetBit b)
      (fun _ f => f = s.cpu.f) s) ∧
  (∀ (b : BitVec 3) (v : Byte) (k : Nat), k < 8 →
    (setBit b v).getLsbD k = (v.getLsbD k || decide (k = b.toNat)) ∧
    (resetBit b v).getLsbD k = (v.getLsbD k && decide (k ≠ b.toNat)))

/-- The rules R551, R552 state this. LD r,half and LD half,r (where H and L name the halves of the same index register) and LD
half,n: the destination takes the value; a half written leaves the other half; 8, 8 and 11 T-states; no flag and nothing else
changes. -/
def Obligations.IndexHalfLoads : Prop :=
  ∀ (s : State) (x : Idx) (hf g : Half) (r : Reg8) (n : Byte),
    Gives (.ldHalfN x hf n) s (s.cpu.setHalf x hf n) 11 ∧
    (r ≠ .h → r ≠ .l → Gives (.ldRHalf x r hf) s (s.cpu.setReg r (s.cpu.half x hf)) 8) ∧
    (r ≠ .h → r ≠ .l → Gives (.ldHalfR x hf r) s (s.cpu.setHalf x hf (s.cpu.reg r)) 8) ∧
    Gives (.ldRHalf x .h hf) s (s.cpu.setHalf x .high (s.cpu.half x hf)) 8 ∧
    Gives (.ldRHalf x .l hf) s (s.cpu.setHalf x .low (s.cpu.half x hf)) 8 ∧
    Gives (.ldHalfR x hf .h) s (s.cpu.setHalf x hf (s.cpu.half x .high)) 8 ∧
    Gives (.ldHalfR x hf .l) s (s.cpu.setHalf x hf (s.cpu.half x .low)) 8 ∧
    (s.cpu.setHalf x hf n).half x g = (if g = hf then n else s.cpu.half x g)

/-- The rules R451, R452, R453, R454, R455, R456, R457, R458, R459, R460 state this. JP nn, JP (HL), JP (IX) go to the target;
JP cc,nn and the conditional JR forms go to theirs when the condition on F holds and otherwise fall through; a relative target
is PC past the instruction plus the signed byte modulo 65536; DJNZ lowers B modulo 256 and jumps while it is not zero;
T-states 10, 4, 8, 10, 12 or 7, 13 or 8; no flag and nothing else changes. -/
def Obligations.Jumps : Prop :=
  ∀ (s : State) (e : Byte) (nn : Word) (cc : Cond) (x : Idx),
    let f := s.cpu.f
    let rel : Word := BitVec.ofInt 16 ((s.cpu.pc.toNat : Int) + e.toInt)
    let holds := match cc with
      | .nz => f.getLsbD 6 = false
      | .z => f.getLsbD 6 = true
      | .nc => f.getLsbD 0 = false
      | .c => f.getLsbD 0 = true
      | .po => f.getLsbD 2 = false
      | .pe => f.getLsbD 2 = true
      | .p => f.getLsbD 7 = false
      | .m => f.getLsbD 7 = true
    let jr := fun (i : Instr) (taken : Prop) =>
      (taken → Gives i s { s.cpu with pc := rel } 12) ∧ (¬taken → Gives i s s.cpu 7)
    Gives (.jpNn nn) s { s.cpu with pc := nn } 10 ∧
    (holds → Gives (.jpCcNn cc nn) s { s.cpu with pc := nn } 10) ∧ (¬holds → Gives (.jpCcNn cc nn) s s.cpu 10) ∧
    Gives .jpHl s { s.cpu with pc := s.cpu.h ++ s.cpu.l } 4 ∧ Gives (.jpIdx x) s { s.cpu with pc := s.cpu.idx x } 8 ∧
    Gives (.jr e) s { s.cpu with pc := rel } 12 ∧
    jr (.jrC e) (f.getLsbD 0 = true) ∧ jr (.jrNc e) (f.getLsbD 0 = false) ∧
    jr (.jrZ e) (f.getLsbD 6 = true) ∧ jr (.jrNz e) (f.getLsbD 6 = false) ∧
    (s.cpu.b ≠ 1 → Gives (.djnz e) s { s.cpu with b := s.cpu.b - 1, pc := rel } 13) ∧
    (s.cpu.b = 1 → Gives (.djnz e) s { s.cpu with b := 0 } 8)

/-- The rules R461, R462, R463, R464, R465, R466, R467, R562 state this. CALL nn, CALL cc,nn when the condition holds, and RST
push PC (past the instruction) and go to nn or t * 8; RET, RET cc when it holds, RETI, RETN and its mirrors pop PC, the last
three also copy IFF2 to IFF1; a condition that fails changes nothing; 17 or 10, 11, 10, 11 or 5, 14 T-states; no flag and
nothing else changes. -/
def Obligations.CallsAndReturns : Prop :=
  ∀ (s : State) (nn : Word) (cc : Cond) (t v : BitVec 3),
    let back := { s.cpu with pc := wordIn s s.cpu.sp, sp := s.cpu.sp + 2 }
    Pushes (.callNn nn) s { s.cpu with pc := nn } 17 s.cpu.pc ∧
    (s.cpu.holds cc = true → Pushes (.callCcNn cc nn) s { s.cpu with pc := nn } 17 s.cpu.pc) ∧
    (s.cpu.holds cc = false → Gives (.callCcNn cc nn) s s.cpu 10) ∧
    Pushes (.rst t) s { s.cpu with pc := BitVec.ofNat 16 (t.toNat * 8) } 11 s.cpu.pc ∧
    Gives .ret s back 10 ∧
    (s.cpu.holds cc = true → Gives (.retCc cc) s back 11) ∧ (s.cpu.holds cc = false → Gives (.retCc cc) s s.cpu 5) ∧
    Gives .reti s { back with iff1 := s.cpu.iff2 } 14 ∧ Gives .retn s { back with iff1 := s.cpu.iff2 } 14 ∧
    Gives (.retnMirror v) s { back with iff1 := s.cpu.iff2 } 14

/-- Derived from 45_input_output.md sections 1 and 2 (R501, R503, R505, R510 to R515); 46_undocumented_forms.md (R559). IN
A,(n); IN r,(C); IN F,(C); INI, IND, INIR, INDR, under the default PORT_DECODE, or under any in a well-formed state with
POOL_CAP at least 3: the read events of the port (A ++ n, or BC before B is lowered) run first and lead to a state with the
same registers, storage and page table, and the instruction completes from it: destination, flags, store, HL, B, repetition
and T-states as the rules say, nothing else changed. Under the default table the events are those of R505: a read of a port
with bit 0 clear raises the vertical sync in variant A when it is off and the NMI generator is off (saving the raster position
and restarting SYNC_LEN), and sets L1 in variant B; nothing else. The value read, which R503 lets be any, is the free value
portIn of the count of draws, one draw for the value and one more for the flags a block input leaves open: the model's choice
(log entry 7). -/
def Obligations.InputInstructions : Prop :=
  ∀ (s : State) (n : Byte) (r : Reg8), s.cfg.portDecode = Config.defaultPorts ∨ (Inv s ∧ 3 ≤ s.cfg.poolCap) →
    let after := fun port : Word =>
      if port.getLsbD 0 then s.ula
      else if s.cfg.machine = .ffVariant then { s.ula with l1 := true }
      else if s.ula.nmiGenOn || s.ula.vsyncState then s.ula
      else { s.ula with vsyncState := true, syncLen := 0, vsX := s.ula.rasterX, vsY := s.ula.rasterY }
    let events := fun (port : Word) (t : State) =>
      s.portReadEvents port = .next t ∧ t.cpu = s.cpu ∧ t.phys = s.phys ∧ t.pt = s.pt ∧
        (s.cfg.portDecode = Config.defaultPorts → t = { s with ula := after port })
    let an : Word := s.cpu.a ++ n
    let bc : Word := s.cpu.b ++ s.cpu.c
    let reads := fun (i : Instr) (step : Word) (repeats : Bool) =>
      let b := s.cpu.b - 1
      let again := repeats && b != 0
      ∃ t f m,
        events bc t ∧
        exec i s = .next
          { t with
            phys := m
            cpu := { (s.cpu.setHl (s.cpu.hl + step)) with b := b, f := f, pc := if again then s.cpu.pc - 2 else s.cpu.pc }
            cycles := if again then 21 else 16
            freeCount := t.freeCount + 2 } ∧
        WroteByte s m s.cpu.hl (Config.portIn t.freeCount bc) ∧ f.getLsbD 6 = (b == 0) ∧ f.getLsbD 1 = true
    (∃ t, events an t ∧ exec (.inAN n) s = .next
      { t with cpu := { s.cpu with a := Config.portIn t.freeCount an }, cycles := 11, freeCount := t.freeCount + 1 }) ∧
    (∃ t f, events bc t ∧
      exec (.inRC r) s = .next
        { t with
          cpu := { s.cpu.setReg r (Config.portIn t.freeCount bc) with f := f }, cycles := 12, freeCount := t.freeCount + 1 } ∧
      ResultFlags (Config.portIn t.freeCount bc) false false (s.cpu.f.getLsbD 0) f) ∧
    (∃ t f, events bc t ∧
      exec .inFC s = .next { t with cpu := { s.cpu with f := f }, cycles := 12, freeCount := t.freeCount + 1 } ∧
      ResultFlags (Config.portIn t.freeCount bc) false false (s.cpu.f.getLsbD 0) f) ∧
    reads .ini 1 false ∧ reads .ind (-1) false ∧ reads .inir 1 true ∧ reads .indr (-1) true

/-- Derived from 45_input_output.md sections 1 and 3 (R504, R506, R507, R516 to R521); 46_undocumented_forms.md (R560). OUT
(n),A; OUT (C),r; OUT (C),0; OUTI, OUTD, OTIR, OTDR complete in every well-formed state with POOL_CAP at least 3, under any
PORT_DECODE: the write events of the port run first (the port of the block forms is BC with the new B); registers, repetition
and T-states as the rules say, memory unchanged; a sound-relevant port appends one event with the counter values. Under the
default table: variant B clears L1; variant A ends a vertical sync and switches the NMI generator off when port bit 1 is 0 and
then on when bit 0 is 0; with no vertical sync under way nothing else of the ULA, the pool or the pixels changes. That a block
output counts one draw, for the flags R518 leaves open, is the model's choice (log entry 7). -/
def Obligations.OutputInstructions : Prop :=
  ∀ (s : State) (n : Byte) (r : Reg8), Inv s → 3 ≤ s.cfg.poolCap →
    let writes := fun (i : Instr) (port : Word) (v : Byte) (before after : Cpu) (cycles drawn : Nat) =>
      let gen := !port.getLsbD 0 || (port.getLsbD 1 && s.ula.nmiGenOn)
      let heard := s.cfg.soundPorts.any fun m => port &&& m.1 == m.2
      ∃ u t, ({ s with cpu := before } : State).portWriteEvents port = .next u ∧ exec i s = .next t ∧
        t = { s with
          cpu := after, cycles := cycles, ula := u.ula, draw := u.draw, pool := u.pool, pix := u.pix, chroma := u.chroma
          ev := u.ev, renBetween := u.renBetween, renView := u.renView
          soundLog := if heard then s.soundLog ++ [⟨port, v, s.frames, s.ts⟩] else s.soundLog
          freeCount := u.freeCount + drawn } ∧
        (s.cfg.portDecode = Config.defaultPorts →
          (s.cfg.machine = .ffVariant → u.ula = { s.ula with l1 := false }) ∧
          (s.cfg.machine = .nmiVariant → u.ula.vsyncState = false ∧ u.ula.nmiGenOn = gen) ∧
          (s.cfg.machine = .nmiVariant → s.ula.vsyncState = false → u.ula = { s.ula with nmiGenOn := gen }) ∧
          (s.cfg.machine = .ffVariant ∨ s.ula.vsyncState = false → u = { s with cpu := before, ula := u.ula }))
    let blocks := fun (i : Instr) (step : Word) (repeats : Bool) =>
      let b := s.cpu.b - 1
      let again := repeats && b != 0
      ∃ f,
        writes i (b ++ s.cpu.c) (s.memRead s.cpu.hl) { s.cpu with b := b }
          { (s.cpu.setHl (s.cpu.hl + step)) with b := b, f := f, pc := if again then s.cpu.pc - 2 else s.cpu.pc }
          (if again then 21 else 16) 1 ∧
        f.getLsbD 6 = (b == 0) ∧ f.getLsbD 1 = true
    writes (.outNA n) (s.cpu.a ++ n) s.cpu.a s.cpu s.cpu 11 0 ∧
    writes (.outCR r) (s.cpu.b ++ s.cpu.c) (s.cpu.reg r) s.cpu s.cpu 12 0 ∧
    writes .outC0 (s.cpu.b ++ s.cpu.c) 0 s.cpu s.cpu 12 0 ∧
    blocks .outi 1 false ∧ blocks .outd (-1) false ∧ blocks .otir 1 true ∧ blocks .otdr (-1) true

/-- Derived from 30_encoding.md (R119 to R123); 40_interpreter_step.md (R141, R146); 46_undocumented_forms.md (R566 to R568).
With the prefix bytes already fetched, in every well-formed state with POOL_CAP at least 3: CB and ED run the instruction they
form with the bytes at PC (one more M1 fetch); DD CB and FD CB run the indexed form (no more M1 fetch); DD or FD before a byte
that is no index prefix runs the instruction they form (one more M1 fetch but for the prefix's own); DD or FD before another
index prefix is ignored at 4 T-states, and so on along a chain of any length that ends; an index prefix without effect costs 4
T-states and the opcode runs as without it, before ED with the prefix dropped. Each completes. What exec of a prefix row
means, with the prefix itself already fetched, is the model's reading of the rules (log entry 10). -/
def Obligations.PrefixRowsRunWhatFollows : Prop :=
  ∀ (s : State) (x : Idx) (w : Byte) (i : Instr) (len : Nat), Inv s → 3 ≤ s.cfg.poolCap →
    let bytes := [s.memRead s.cpu.pc, s.memRead (s.cpu.pc + 1), s.memRead (s.cpu.pc + 2), s.memRead (s.cpu.pc + 3)]
    let own := match x with
      | .ix => Pfx.ix
      | .iy => Pfx.iy
    let moved := fun (k : Nat) (m1 : Bool) (p : Pfx) => { s with cpu := { s.cpu with
      pc := s.cpu.pc + BitVec.ofNat 16 k, r := if m1 then incRefresh s.cpu.r else s.cpu.r, pfx := p } }
    let runs := fun (row : Instr) (t : State) (extra : Nat) =>
      ∃ u, exec i t = .next u ∧ exec row s = .next { u with cycles := u.cycles + extra }
    let index := s.memRead s.cpu.pc = 0xDD ∨ s.memRead s.cpu.pc = 0xFD
    (decode (0xCB :: bytes) = .ok (i, len) → runs .prefixCb (moved (len - 1) true s.cpu.pfx) 0) ∧
    (decode (0xED :: bytes) = .ok (i, len) → runs .prefixEd (moved (len - 1) true s.cpu.pfx) 0) ∧
    (decode (indexByte x :: 0xCB :: bytes) = .ok (i, len) → runs (.prefixIdxCb x) (moved (len - 2) false own) 0) ∧
    (¬index → decode (indexByte x :: bytes) = .ok (i, len) → runs (prefixRow x) (moved (len - 1) true own) 0) ∧
    (index → decode bytes = .ok (i, len) → i ≠ .prefixDd → i ≠ .prefixFd →
      runs (prefixRow x) { s with cpu := { s.cpu with
        pc := s.cpu.pc + BitVec.ofNat 16 len, r := incRefresh (incRefresh s.cpu.r)
        pfx := if s.memRead s.cpu.pc = 0xDD then .ix else .iy } } 4) ∧
    (index → decode bytes = .ok (i, len) → i = .prefixDd ∨ i = .prefixFd →
      (∃ a : Word, s.memRead a ≠ 0xDD ∧ s.memRead a ≠ 0xFD) →
      runs (prefixRow x) { s with cpu := { s.cpu with
        pc := s.cpu.pc + 1, r := incRefresh s.cpu.r, pfx := if s.memRead s.cpu.pc = 0xDD then .ix else .iy } } 4) ∧
    ((Instr.indexPrefixNoEffect x w).wf = true → w ≠ 0xED → decode (w :: bytes) = .ok (i, len) →
      runs (.indexPrefixNoEffect x w) (moved (len - 1) false own) 4) ∧
    (decode (0xED :: bytes) = .ok (i, len) → runs (.indexPrefixNoEffect x 0xED) (moved (len - 1) true .none) 4)

/-- Derived from 41_load_exchange_block.md R200; 42_arithmetic.md R300; 43_rotate_shift_bit.md R400; 44_jump_call_return.md
R450; 45_input_output.md R500; 46_undocumented_forms.md R550. For all 207 rows that are no prefix: exec answers a next state
in every state (an input or output: in every well-formed state with POOL_CAP at least 3) in which every register but the
destinations of its rule, every bit of F its rule does not name, PFX, and every byte of PHYS but those at the addresses its
stores compute are as before. PC is among the registers: exec runs with PC past the instruction (R200), and only a jump, call,
return or restart that is taken, HALT and a block form that repeats may move it. The page table, TS, FRAMES, the configuration
and the agenda are never written, and an instruction that is no input or output changes nothing outside the CPU, the storage,
the T-states returned and the count of free values. -/
def Obligations.InstructionFrame : Prop :=
  ∀ (i : Instr) (s : State), i.isPrefixRow = false → (i.isPort = true → Inv s ∧ 3 ≤ s.cfg.poolCap) →
    ∃ t, exec i s = .next t ∧
      (∀ q, q ∉ (touch i s).regs → valueOf t.cpu q = valueOf s.cpu q) ∧
      (t.cpu.f &&& ~~~(touch i s).flags) = (s.cpu.f &&& ~~~(touch i s).flags) ∧ t.cpu.pfx = s.cpu.pfx ∧
      (∀ p, (∀ a ∈ (touch i s).stores, s.physAddr a ≠ p) → t.phys.read p = s.phys.read p) ∧
      (∀ a : Word, (∀ b ∈ (touch i s).stores, s.physAddr b ≠ s.physAddr a) → t.memRead a = s.memRead a) ∧
      (t.cfg = s.cfg ∧ t.pt = s.pt ∧ t.ts = s.ts ∧ t.frames = s.frames ∧ t.agenda = s.agenda) ∧
      (i.isPort = false → OnlyCpu s t)

/-- Derived from 47_ula_raster_sync.md sections 1 and 2 (R604, R605, R610 to R612, R616); 10_state.md section 5 (R40). TickA
advances RasterX by X_PER_T and the modulo counter by one modulo LINE_TS; HSYNC_state is the pulse level; exactly when the
counter reaches HS_OFFSET a horizontal edge happens: RasterX 0, RasterY plus one, ROW zero while the vertical sync is on and
plus one modulo 8 otherwise, the line-boundary and row-stale answers, and NMI_PENDING set when the generator is on (a pending
request stays); SYNC_LEN counts while the vertical sync is on, saturating; nothing else changes. That a raster sum keeps its
low 32 bits is the model's reading of R11 (log entry 14). -/
def Obligations.TickOfVariantA : Prop :=
  ∀ s : State,
    let n := (s.ula.hsCounter + 1) % s.cfg.lineTs
    let edge := n = s.cfg.hsOffset
    s.tickA =
      { s with
        ula := { s.ula with
          hsCounter := n
          hsyncState := decide (((n : Int) - s.cfg.hsOffset) % s.cfg.lineTs < s.cfg.hsWidth)
          rasterX := if edge then 0 else s.ula.rasterX + BitVec.ofNat 32 s.cfg.xPerT
          rasterY := if edge then s.ula.rasterY + 1 else s.ula.rasterY
          row := if edge then (if s.ula.vsyncState then 0 else BitVec.ofNat 3 ((s.ula.row.toNat + 1) % 8)) else s.ula.row
          nmiPending := s.ula.nmiPending || (decide edge && s.ula.nmiGenOn)
          syncLen :=
            if s.ula.vsyncState then BitVec.ofNat 32 (min (s.ula.syncLen.toNat + 1) (2 ^ 32 - 1)) else s.ula.syncLen }
        ev := { s.ev with
          lineBoundary := s.ev.lineBoundary || decide edge
          rowStale := s.ev.rowStale || decide edge } }

/-- Derived from 47_ula_raster_sync.md sections 1 and 3 (R604, R605, R608, R620, R622, R623, R625); 00_scope.md section 5
(R9); 10_state.md section 5 (R40). In every well-formed state with POOL_CAP at least 3 TickB completes. RasterX advances by
X_PER_T; the latches, SYNC_LEN and the edges are what LATCH_FN makes of the latches and SYNC_LEN, by default: L2 falls
HS_WIDTH_B T-states after it rose, L3 becomes L1 or L2, a rise of L1 or L2 over L3 restarts SYNC_LEN, SYNC_LEN counts while L1
or L2 is set, saturating, and their fall is a falling edge. A rising edge saves the raster position. At a falling edge a pulse
of VSYNC_THRESHOLD or more is vertical: the region from the saved to the present position is filled, ROW is kept, ROW_HOLD
set, RasterY 0, the field-boundary answer given, and the outcome is the hand-off of that state. Any shorter pulse is
horizontal: RasterX 0, RasterY plus one, ROW zero if held and else plus one, ROW_HOLD cleared, the line-boundary and row-stale
answers. Nothing else changes. That a raster sum and the count of L2_LEN keep their low 32 bits is the model's reading of R11
(log entry 14), and a LATCH_FN other than the default is a free function (log entry 11). -/
def Obligations.TickOfVariantB : Prop :=
  ∀ s : State, Inv s → 3 ≤ s.cfg.poolCap →
    let u := s.ula
    let len := if u.l2 then u.l2Len + 1 else u.l2Len
    let l2 := u.l2 && decide (len.toNat < s.cfg.hsWidthB)
    let comp := u.l1 || l2
    let from0 := if comp && !u.l3 then 0 else u.syncLen
    let counted := if comp then BitVec.ofNat 32 (min (from0.toNat + 1) (2 ^ 32 - 1)) else from0
    let o : LatchStep :=
      if s.cfg.latch = .standard then ⟨⟨u.l1, l2, comp, len, counted⟩, comp && !u.l3, !comp && u.l3⟩
      else Config.latchFn ⟨u.l1, u.l2, u.l3, u.l2Len, u.syncLen⟩
    let x := u.rasterX + BitVec.ofNat 32 s.cfg.xPerT
    let base : Ula :=
      { u with
        rasterX := x, l1 := o.latches.l1, l2 := o.latches.l2, l3 := o.latches.l3, l2Len := o.latches.l2Len
        syncLen := o.latches.syncLen
        vsX := if o.rises then x else u.vsX
        vsY := if o.rises then u.rasterY else u.vsY }
    let vertical := s.cfg.vsyncThreshold ≤ o.latches.syncLen.toNat
    ∃ t, s.tickB = .next t ∧
      (o.falls = false → t = { s with ula := base }) ∧
      (o.falls = true → ¬vertical →
        t = { s with
          ula := { base with
            rasterX := 0
            rasterY := u.rasterY + 1
            row := if u.rowHold then 0 else BitVec.ofNat 3 ((u.row.toNat + 1) % 8)
            rowHold := false }
          ev := { s.ev with lineBoundary := true, rowStale := true } }) ∧
      (o.falls = true → vertical →
        ({ s with
          ula := { base with rasterY := 0, rowHold := true }
          ev := { s.ev with fieldBoundary := true }
          pix := (s.floodFill base.vsX.toInt base.vsY.toInt x.toInt u.rasterY.toInt).pix } : State).fieldHandOff = .next t ∧
        t.ula = { base with rasterY := 0, rowHold := true } ∧ t.ev = { s.ev with fieldBoundary := true } ∧ t.draw.isSome ∧
          t.cpu = s.cpu ∧ t.phys = s.phys ∧ t.ts = s.ts ∧ t.frames = s.frames)

/-- The rules R608, R614, R615 state this. VsyncSet with the pulse off sets it, restarts SYNC_LEN and saves the raster
position; during a pulse it changes nothing. In every well-formed state with POOL_CAP at least 3 VsyncClear completes; with
the pulse off it changes nothing; with it on it clears it and fills the region from the saved to the present position, and
exactly when SYNC_LEN is at least VSYNC_THRESHOLD it is a field boundary: RasterY 0, the field-boundary answer, and the
hand-off of the draw buffer. -/
def Obligations.VerticalSyncPulseOfVariantA : Prop :=
  ∀ s : State,
    (s.ula.vsyncState = true → s.vsyncSet = s) ∧
    (s.ula.vsyncState = false → s.vsyncSet =
      { s with ula := { s.ula with vsyncState := true, syncLen := 0, vsX := s.ula.rasterX, vsY := s.ula.rasterY } }) ∧
    (s.ula.vsyncState = false → s.vsyncClear = .next s) ∧
    (Inv s → 3 ≤ s.cfg.poolCap → s.ula.vsyncState = true →
      let filled : State := { s with
        ula := { s.ula with vsyncState := false }
        pix := (s.floodFill s.ula.vsX.toInt s.ula.vsY.toInt s.ula.rasterX.toInt s.ula.rasterY.toInt).pix }
      (s.ula.syncLen.toNat < s.cfg.vsyncThreshold → s.vsyncClear = .next filled) ∧
      (s.cfg.vsyncThreshold ≤ s.ula.syncLen.toNat →
        ∃ t, s.vsyncClear = .next t ∧
          ({ filled with
              ula := { filled.ula with rasterY := 0 }
              ev := { filled.ev with fieldBoundary := true } } : State).fieldHandOff = .next t ∧
          t.ula = { s.ula with vsyncState := false, rasterY := 0 } ∧ t.ev = { s.ev with fieldBoundary := true } ∧
          t.draw.isSome))

/-- Derived from 47_ula_raster_sync.md sections 1 and 7 (R605, R606, R607, R655); 10_state.md section 5 (R40). Clamp: a
RasterX of LINE_MAX or more becomes 0, with RasterY plus one and the line-boundary answer, ROW and row_stale as they were;
then a RasterY of FIELD_MAX_LINES or more is a sync loss; nothing else changes. SyncLoss in a well-formed state: the pool is
blanked in the colour SYNC_LOSS_BLACK asks for, RasterY is 0, the field-boundary answer given, DRAW and all else but REN's own
turn as before. From any well-formed state whose raster is in bounds (the bounds being 32-bit values), a T-state keeps 0 <=
RasterX < LINE_MAX and 0 <= RasterY < FIELD_MAX_LINES after the clamp (RasterX < LINE_MAX + X_PER_T and RasterY <=
FIELD_MAX_LINES before it), and so does a whole EmuCycle; and over any advance, if no horizontal edge was detected in it
(EV.row_stale still false), ROW has the value it had; no instruction or interrupt entry changes ROW. That a raster sum keeps
its low 32 bits is the model's reading of R11 (log entry 14). -/
def Obligations.RasterStaysInBounds : Prop :=
  (∀ s : State,
    let late := (s.cfg.lineMax : Int) ≤ s.ula.rasterX.toInt
    let y := if late then s.ula.rasterY + 1 else s.ula.rasterY
    let line : State :=
      { s with
        ula := { s.ula with rasterX := if late then 0 else s.ula.rasterX, rasterY := y }
        ev := { s.ev with lineBoundary := s.ev.lineBoundary || decide late } }
    (y.toInt < s.cfg.fieldMaxLines → s.clamp = .next line) ∧ (s.cfg.fieldMaxLines ≤ y.toInt → s.clamp = line.syncLoss)) ∧
  (∀ s : State, Inv s →
    ∃ t, s.syncLoss = .next t ∧ t.pool.blanked = true ∧
      t.pool.blankColour = (if s.cfg.syncLossBlack then .black else .white) ∧
      t = { s with
        pool := t.pool, ula := { s.ula with rasterY := 0 }, ev := { s.ev with fieldBoundary := true }
        renBetween := t.renBetween, renView := t.renView } ∧
      (s.renBetween = [] → t.pool = s.pool.blank s.cfg.syncLossBlack)) ∧
  (∀ s t : State, Inv s → RasterFits s.cfg → RasterInBounds s → s.tick = .next t → RasterInBounds t) ∧
  (∀ s : State, Inv s → RasterFits s.cfg → RasterInBounds s →
    0 ≤ s.tickA.ula.rasterX.toInt ∧ s.tickA.ula.rasterX.toInt < s.cfg.lineMax + s.cfg.xPerT ∧
    0 ≤ s.tickA.ula.rasterY.toInt ∧ s.tickA.ula.rasterY.toInt ≤ s.cfg.fieldMaxLines) ∧
  (∀ s t : State, Inv s → RasterFits s.cfg → RasterInBounds s → s.tickB = .next t →
    0 ≤ t.ula.rasterX.toInt ∧ t.ula.rasterX.toInt < s.cfg.lineMax + s.cfg.xPerT ∧
    0 ≤ t.ula.rasterY.toInt ∧ t.ula.rasterY.toInt ≤ s.cfg.fieldMaxLines) ∧
  (∀ s t : State, Inv s → RasterFits s.cfg → RasterInBounds s → s.emuCycle = .next t → RasterInBounds t) ∧
  (∀ (s t : State) (c : Nat), s.ev.rowStale = false → s.syncAdvance c = .next t → t.ev.rowStale = false →
    t.ula.row = s.ula.row) ∧
  (∀ s t : State, s.stepCpu = .next t → t.ula.row = s.ula.row)

/-- The rules R160, R161, R162 state this. After advances by any costs from TS = 0 and FRAMES = 0, with total T: TS is T mod
FIELD_MODULUS and FRAMES is T div FIELD_MODULUS modulo 2^32, and nothing else but the sound change list differs; an advance
that does not wrap keeps that list, one that wraps once hands it over as flushed and empties it. -/
def Obligations.CycleCounterWrapsExactly : Prop :=
  (∀ (s : State) (costs : List Nat), s.ts = 0 → s.frames = 0 → 0 < s.cfg.fieldModulus →
    let t := costs.foldl State.counterAdvance s
    t.ts = costs.sum % s.cfg.fieldModulus ∧ t.frames.toNat = costs.sum / s.cfg.fieldModulus % 2 ^ 32 ∧
    t = { s with ts := t.ts, frames := t.frames, soundLog := t.soundLog, soundFlushed := t.soundFlushed }) ∧
  (∀ (s : State) (c : Nat), 0 < s.cfg.fieldModulus →
    (s.ts + c < s.cfg.fieldModulus → s.counterAdvance c = { s with ts := s.ts + c }) ∧
    (s.cfg.fieldModulus ≤ s.ts + c → s.ts + c < 2 * s.cfg.fieldModulus →
      s.counterAdvance c =
        { s with
          ts := s.ts + c - s.cfg.fieldModulus, frames := s.frames + 1, soundFlushed := s.soundLog, soundLog := [] }))

/-- The rules R645 state this. In a well-formed state with a draw buffer: the fill from (x0, y0) to (x1, y1) sets to ink every
pixel of the draw buffer whose linear index lies from the clipped index of the first position up to but without that of the
second, or, when the second comes first, from the first to the end and from the start up to the second; every other pixel of
the draw buffer, every other buffer, the chroma storage and the rest of the state stay. With no draw buffer nothing changes.
-/
def Obligations.FloodFillRegion : Prop :=
  (∀ (s : State) (x0 y0 x1 y1 : Int), s.draw = none → s.floodFill x0 y0 x1 y1 = s) ∧
  (∀ (s : State) (x0 y0 x1 y1 : Int) (h : Nat), Inv s → s.draw = some h →
    let w : Int := s.cfg.bufW
    let lin := fun (x y : Int) =>
      let bx := x + s.cfg.pixOffsetX - s.cfg.winX0
      let by0 := y - s.cfg.winY0
      if by0 < 0 then 0 else if (s.cfg.bufH : Int) ≤ by0 then w * s.cfg.bufH else by0 * w + min (max bx 0) w
    let first := lin x0 y0
    let last := lin x1 y1
    let t := s.floodFill x0 y0 x1 y1
    t = { s with pix := t.pix } ∧ t.pix.length = s.pix.length ∧
    (∀ k, k ≠ h → t.pix.getD k [] = s.pix.getD k []) ∧
    ∀ x y : Nat, x < s.cfg.bufW → y < s.cfg.bufH →
      let p : Int := y * w + x
      let inside := if first ≤ last then first ≤ p ∧ p < last else first ≤ p ∨ p < last
      (inside → (t.pix.getD h []).pixel s.cfg.stride x y = true) ∧
      (¬inside → (t.pix.getD h []).pixel s.cfg.stride x y = (s.pix.getD h []).pixel s.cfg.stride x y))

/-- The rules R640, R712 state this. In every well-formed state with POOL_CAP at least 3 the hand-off completes. With a draw
buffer h, and REN taking no turn in between: the pool is the one submit of h (deferred unless FRAME_SYNC is off, predecessor
released, coloured as COLOUR) and then acquire_free leave, DRAW the handle acquired, every byte of its pixel storage (and, in
colour, of its chroma storage) 0, every other buffer's pixels as before, and everything outside the pool and pixel storage
unchanged. -/
def Obligations.FieldHandOffGivesClearBuffer : Prop :=
  (∀ s : State, Inv s → 3 ≤ s.cfg.poolCap → ∃ t, s.fieldHandOff = .next t ∧ t.draw.isSome) ∧
  (∀ (s : State) (h : Nat), Inv s → 3 ≤ s.cfg.poolCap → s.draw = some h → s.renBetween = [] →
    ∃ p q k t, s.pool.submit s.cfg.colour h (decide (s.cfg.frameSync ≠ .off)) true s.cfg.colour = some p ∧
      p.acquireFree = some (k, q) ∧ s.fieldHandOff = .next t ∧
      t = { s with pool := q, draw := some k, pix := t.pix, chroma := t.chroma } ∧
      (∀ j, (t.pix.getD k []).read j = 0) ∧ (s.cfg.colour = true → ∀ j, (t.chroma.getD k []).read j = 0) ∧
      (s.cfg.colour = false → t.chroma = s.chroma) ∧
      ∀ n, n ≠ k → t.pix.getD n [] = s.pix.getD n [] ∧ t.chroma.getD n [] = s.chroma.getD n [])

/-- The rules R707 state this. From any pool in which each handle 0 .. cap - 1 has exactly one role and at most two are
pending, whatever sequence of acquire_free, submit (with any flags), blank, current and advance_frame completes leaves a pool
with the same property, and the numbers of free, pending, current, previous and outstanding handles add up to cap. -/
def Obligations.PoolRolesStayDisjoint : Prop :=
  ∀ (cap : Nat) (colour : Bool) (calls : List PoolCall) (p q : Pool),
    OneRoleEach cap p → p.pend.length ≤ 2 → callsPool colour calls p = some q →
    OneRoleEach cap q ∧ q.pend.length ≤ 2 ∧
    q.free.length + q.pend.length + q.cur.toList.length + q.prev.toList.length + q.out.length = cap ∧
    ∀ h, h < cap ↔ (h ∈ q.free ∨ h ∈ q.pend ∨ q.cur = some h ∨ q.prev = some h ∨ h ∈ q.out)

/-- The rules R710, R712, R715, R716, R717, R718 state this. acquire_free takes the first free handle; without one the
previous buffer; without that the current one, which the oldest pending buffer replaces; and fails only when all three are
empty, which never happens with nothing outstanding and a capacity of 3 or more. submit of an outstanding handle stores the
chroma flag in colour mode and, deferred and not blanked, appends to the queue, evicting the oldest entry (both when
interlaced) of a full queue to the free list; otherwise it frees the queue oldest first and then the current buffer (or makes
it outstanding), shows the new one and ends the blanking. A handle that is not outstanding is rejected. -/
def Obligations.BufferIsAcquiredAndSubmitted : Prop :=
  (∀ p : Pool,
    (∀ h rest, p.free = h :: rest → p.acquireFree = some (h, { p with free := rest, out := outInsert h p.out })) ∧
    (∀ h, p.free = [] → p.prev = some h → p.acquireFree = some (h, { p with prev := none, out := outInsert h p.out })) ∧
    (∀ h n rest, p.free = [] → p.prev = none → p.cur = some h → p.pend = n :: rest →
      p.acquireFree = some (h, { p with cur := some n, shown := n, pend := rest, out := outInsert h p.out })) ∧
    (∀ h, p.free = [] → p.prev = none → p.cur = some h → p.pend = [] →
      p.acquireFree = some (h, { p with cur := none, out := outInsert h p.out })) ∧
    (p.free = [] → p.prev = none → p.cur = none → p.acquireFree = none)) ∧
  (∀ (cap : Nat) (p : Pool), OneRoleEach cap p → p.pend.length ≤ 2 → p.out = [] → 3 ≤ cap → p.acquireFree.isSome) ∧
  (∀ (l : List Nat) (h k : Nat), k ∈ outInsert h l ↔ k = h ∨ k ∈ l) ∧
  (∀ (p : Pool) (colour deferred release coloured : Bool) (h : Nat),
    (h ∉ p.out → p.submit colour h deferred release coloured = none) ∧
    (h ∈ p.out →
      let o := p.out.filter (· != h)
      let flags := if colour then p.chromaInUse.set h coloured else p.chromaInUse
      let got := p.submit colour h deferred release coloured
      (deferred = true → p.blanked = false → p.pend.length ≠ 2 →
        got = some { p with out := o, chromaInUse := flags, pend := p.pend ++ [h] }) ∧
      (∀ a b, deferred = true → p.blanked = false → p.pend = [a, b] → p.interlace = false →
        got = some { p with out := o, chromaInUse := flags, free := p.free ++ [a], pend := [b, h] }) ∧
      (∀ a b, deferred = true → p.blanked = false → p.pend = [a, b] → p.interlace = true →
        got = some { p with out := o, chromaInUse := flags, free := p.free ++ [a, b], pend := [h] }) ∧
      (deferred = false ∨ p.blanked = true →
        (p.cur = none → got = some { p with
          out := o, chromaInUse := flags, free := p.free ++ p.pend, pend := [], cur := some h, shown := h, blanked := false }) ∧
        (∀ k, p.cur = some k → release = true → got = some { p with
          out := o, chromaInUse := flags, free := p.free ++ p.pend ++ [k], pend := [], cur := some h, shown := h
          blanked := false }) ∧
        (∀ k, p.cur = some k → release = false → got = some { p with
          out := outInsert k o, chromaInUse := flags, free := p.free ++ p.pend, pend := [], cur := some h, shown := h
          blanked := false }))))

/-- The rules R719, R720, R725, R726, R740 state this. blank frees the pending, previous and current buffers in this order and
marks the display blanked in the colour asked; current first promotes the oldest pending buffer (freeing the old current one,
or, interlaced, freeing the previous one and keeping the current one as previous with the parity toggled) and answers CUR, or
SHOWN while there is none, with the blanked state and the chroma flag; advance_frame promotes in progressive mode; interlaced
it promotes when two are pending, promotes and sets NO_SKIP when it was clear and one is pending, and otherwise swaps current
and previous and clears NO_SKIP. -/
def Obligations.DisplayedBufferIsChosen : Prop :=
  (∀ (p : Pool) (black : Bool),
    p.blank black = { p with
      free := p.free ++ p.pend ++ p.prev.toList ++ p.cur.toList, pend := [], prev := none, cur := none, blanked := true
      blankColour := if black then .black else .white }) ∧
  (∀ (p : Pool), p.pend = [] → p.promote = p) ∧
  (∀ (p : Pool) (h : Nat) (rest : List Nat), p.pend = h :: rest →
    (p.interlace = false → p.promote =
      { p with free := p.free ++ p.cur.toList, cur := some h, shown := h, pend := rest }) ∧
    (p.interlace = true → p.promote =
      { p with
        free := p.free ++ p.prev.toList, prev := p.cur, cur := some h, shown := h, pend := rest
        frameParity := !p.frameParity })) ∧
  (∀ s : State, s.pool.lock = .free →
    ∃ t v, s.renOp .current = .next t ∧ t = { s with pool := s.pool.promote, renView := some v } ∧
      (∀ h, t.pool.cur = some h → v.handle = h) ∧ (t.pool.cur = none → v.handle = t.pool.shown) ∧
      v.blanked = t.pool.blanked ∧ v.blankColour = t.pool.blankColour ∧
      v.chromaInUse = (s.cfg.colour && t.pool.chromaInUse.getD v.handle false)) ∧
  (∀ p : Pool,
    (p.interlace = false → p.advanceFrame = p.promote) ∧
    (p.interlace = true → p.pend.length = 2 → p.advanceFrame = p.promote) ∧
    (p.interlace = true → p.pend.length = 1 → p.noSkip = false → p.advanceFrame = { p.promote with noSkip := true }) ∧
    (p.interlace = true → p.pend.length < 2 → p.noSkip = true ∨ p.pend = [] →
      (p.prev = none → p.advanceFrame = { p with noSkip := false }) ∧
      (∀ h, p.prev = some h → p.advanceFrame =
        { p with cur := some h, prev := p.cur, shown := h, frameParity := !p.frameParity, noSkip := false })))

/-- The rules R770, R771, R772, R773, R774 state this. The bytes saved are 102: the register file at offsets 0 to 29, TS,
RasterX and RasterY at 30 to 41, the fourteen sync fields at 42 to 97 and the four pool flags at 98 to 101, each multi-byte
field little-endian, signed fields in two's complement. TS and HS_COUNTER, which have no stated width, are meant where they
are below 2^32. -/
def Obligations.SnapshotLayout : Prop :=
  ∀ s : State,
    let at1 := fun k : Nat => ((snapBytes s).getD k 0).toNat
    let at2 := fun k : Nat => at1 k + 256 * at1 (k + 1)
    let at4 := fun k : Nat => at2 k + 65536 * at2 (k + 2)
    let c := s.cpu
    let u := s.ula
    (snapBytes s).length = 102 ∧
    (List.range 17).map at1 = [c.a, c.f, c.b, c.c, c.d, c.e, c.h, c.l, c.a2, c.f2, c.b2, c.c2, c.d2, c.e2, c.h2, c.l2,
      c.i].map BitVec.toNat ∧
    at1 17 = c.iff1.toNat ∧ at1 18 = c.iff2.toNat ∧ at1 19 = valueOf c .im ∧
    [20, 22, 24, 26].map at2 = [c.ix, c.iy, c.sp, c.pc].map BitVec.toNat ∧ at1 28 = c.r.toNat ∧
    at1 29 = (match c.pfx with
      | .none => 0
      | .ix => 1
      | .iy => 2) ∧
    (s.ts < 2 ^ 32 → at4 30 = s.ts) ∧
    ([34, 38, 50, 54].map fun k => if at4 k < 2 ^ 31 then (at4 k : Int) else at4 k - 2 ^ 32) =
      [u.rasterX, u.rasterY, u.vsX, u.vsY].map BitVec.toInt ∧
    at4 42 = u.row.toNat ∧ at4 46 = u.syncLen.toNat ∧ (u.hsCounter < 2 ^ 32 → at4 66 = u.hsCounter) ∧ at4 90 = u.l2Len.toNat ∧
    [58, 62, 70, 74, 78, 82, 86, 94].map at4 =
      [u.hsyncState, u.vsyncState, u.nmiGenOn, u.nmiPending, u.l1, u.l2, u.l3, u.rowHold].map Bool.toNat ∧
    [98, 100, 101].map at1 = [s.pool.blanked, s.pool.interlace, s.pool.frameParity].map Bool.toNat ∧
    at1 99 = (if s.pool.blankColour = .white then 1 else 0)

/-- Derived from 49_snapshot.md (R771 to R778). Loading the bytes just saved, in a state between steps (PFX none, TS below a
modulus of at most 2^32, HS_COUNTER below 2^32, INT_GEN the generator function of the sync state), changes nothing but HALTED
and EI_DELAY, cleared, and the report. Saving never changes anything but the report, and fails when the sink takes fewer than
102 bytes. A load of fewer than 102 bytes changes nothing but the report; a load of 102 or more changes no storage, page
table, FRAMES, DRAW, pool list, SHOWN, NO_SKIP, RENDER_READY or pixel, clears HALTED and EI_DELAY, takes bit 0 of every
boolean and one-bit field and of BLANK_COLOUR, IM modulo 4 with 3 read as 0, PFX codes other than 1 and 2 as none, TS modulo
FIELD_MODULUS, ROW modulo 8, and every other field as the bytes at its offset, low byte first. That a load of fewer than 102
bytes changes nothing follows R777 against U24 (log entry 16); that a load keeps an HS_COUNTER of LINE_TS or more, here and in
the round trip, is the model's choice (log entry 14), and that a PFX named by the snapshot is stored is the model's reading
(log entry 19). -/
def Obligations.SnapshotRoundTrip : Prop :=
  (∀ s : State, s.cpu.pfx = .none → s.ts < s.cfg.fieldModulus → s.cfg.fieldModulus ≤ 2 ^ 32 → s.ula.hsCounter < 2 ^ 32 →
    s.ula.intGen = intGenOf s.cfg s.ula.syncFields →
    s.load (snapBytes s) = { s with cpu := { s.cpu with halted := false, eiDelay := false }, hostResult := .loaded }) ∧
  (∀ (s : State) (n : Nat),
    s.save n = { s with hostResult := if n < 102 then .saveFailed else .saved (snapBytes s) }) ∧
  (∀ (s : State) (bs : List Byte), bs.length < 102 → s.load bs = { s with hostResult := .loadFailed }) ∧
  (∀ (s : State) (bs : List Byte), 102 ≤ bs.length →
    let t := s.load bs
    let c := t.cpu
    let u := t.ula
    let at1 := fun k : Nat => (bs.getD k 0).toNat
    let at2 := fun k : Nat => at1 k + 256 * at1 (k + 1)
    let at4 := fun k : Nat => at2 k + 65536 * at2 (k + 2)
    t = { s with
      cpu := t.cpu, ts := t.ts, ula := t.ula, hostResult := .loaded
      pool := { s.pool with
        blanked := t.pool.blanked, blankColour := t.pool.blankColour, interlace := t.pool.interlace
        frameParity := t.pool.frameParity } } ∧
    c.halted = false ∧ c.eiDelay = false ∧ u.intGen = intGenOf s.cfg u.syncFields ∧
    [c.a, c.f, c.b, c.c, c.d, c.e, c.h, c.l, c.a2, c.f2, c.b2, c.c2, c.d2, c.e2, c.h2, c.l2, c.i, c.r].map BitVec.toNat =
      (List.range 17).map at1 ++ [at1 28] ∧
    [c.ix, c.iy, c.sp, c.pc].map BitVec.toNat = [20, 22, 24, 26].map at2 ∧
    [u.rasterX, u.rasterY, u.syncLen, u.vsX, u.vsY, u.l2Len].map BitVec.toNat = [34, 38, 46, 50, 54, 90].map at4 ∧
    u.hsCounter = at4 66 ∧
    [c.iff1, c.iff2, u.hsyncState, u.vsyncState, u.nmiGenOn, u.nmiPending, u.l1, u.l2, u.l3, u.rowHold, t.pool.blanked,
      t.pool.interlace, t.pool.frameParity].map Bool.toNat =
      [17, 18, 58, 62, 70, 74, 78, 82, 86, 94, 98, 100, 101].map (fun k => at1 k % 2) ∧
    (t.pool.blankColour = .white ↔ at1 99 % 2 = 1) ∧
    c.im = (if at1 19 % 4 = 1 then .im1 else if at1 19 % 4 = 2 then .im2 else .im0) ∧
    c.pfx = (if at1 29 = 1 then .ix else if at1 29 = 2 then .iy else .none) ∧
    t.ts = at4 30 % s.cfg.fieldModulus ∧ u.row.toNat = at1 42 % 8)

/-- Derived from 47_ula_raster_sync.md section 5 (R641); 48_frame_pool.md section 4 (R745). With no action due and DRAW none,
a step before RENDER_READY is set only sets it; once it is set (with REN taking no turn) a step of a well-formed state with
POOL_CAP at least 3 makes DRAW the handle acquire_free gives, clears its pixels and runs no instruction; RENDER_READY is never
cleared by either. That REN gives its signal in the first step is the model's choice (log entry 8), and so is that the signal
and its test do not look at LOCK (log entry 12). -/
def Obligations.EmuStartsAfterRenderReady : Prop :=
  (∀ s : State, s.agenda = [] → s.draw = none → s.pool.renderReady = false →
    step s = .next { s with pool := { s.pool with renderReady := true } }) ∧
  (∀ s : State, Inv s → 3 ≤ s.cfg.poolCap → s.agenda = [] → s.draw = none → s.pool.renderReady = true → s.renBetween = [] →
    ∃ k q t, s.pool.acquireFree = some (k, q) ∧ step s = .next t ∧ t.pool.renderReady = true ∧
      t = { s with pool := q, draw := some k, pix := t.pix, chroma := t.chroma } ∧ ∀ j, (t.pix.getD k []).read j = 0)
end

