-- ==== Sys2Proof/Laws/Pool.lean ====
section
/-! SUPPORT. What each pool operation does to the roles of R707: every body keeps `PoolOk`, and what it does to `OUT`. -/

namespace Sys2Proof.Safety

open Machine

/-! ### Counting -/

theorem count_outInsert (h k : Nat) (l : List Nat) (hn : h ∉ l) :
    (outInsert h l).count k = l.count k + if h = k then 1 else 0 := by
  induction l with
  | nil => simp [outInsert, List.count_cons]
  | cons a l ih =>
    have ha : h ≠ a := fun e => hn (e ▸ List.mem_cons_self)
    have ih := ih fun m => hn (List.mem_cons_of_mem _ m)
    simp only [outInsert, ha, if_false]
    split
    · simp [List.count_cons]
    · simp only [List.count_cons, ih]; omega

theorem count_filter_ne (h k : Nat) (l : List Nat) :
    (l.filter (· != h)).count k = if h = k then 0 else l.count k := by
  split
  · next e => subst e; rw [List.count_eq_zero]; simp
  · next e =>
    rw [List.count_filter]
    simpa using fun e' => e e'.symm

/-- The roles, by counting: each handle of the pool once, and no other. -/
theorem roles_iff_count (cap : Nat) (p : Pool) :
    (handlesInRoles p).Perm (List.range cap) ↔
      ∀ k, p.free.count k + p.pend.count k + p.cur.toList.count k + p.prev.toList.count k + p.out.count k =
        if k < cap then 1 else 0 := by
  rw [List.perm_iff_count]
  refine forall_congr' fun k => ?_
  simp only [handlesInRoles, List.count_append]
  have : (List.range cap).count k = if k < cap then 1 else 0 := by
    split
    · exact List.count_eq_one_of_mem List.nodup_range (List.mem_range.2 ‹_›)
    · exact List.count_eq_zero_of_not_mem fun m => ‹¬k < cap› (List.mem_range.1 m)
  rw [this]

theorem not_mem_out {cap : Nat} {p : Pool} (h : PoolOk cap p) {k : Nat}
    (hk : 0 < p.free.count k + p.pend.count k + p.cur.toList.count k + p.prev.toList.count k) : k ∉ p.out := by
  intro m
  have := (roles_iff_count cap p).1 h.roles k
  have := List.count_pos_iff.2 m
  split at * <;> omega

theorem lt_of_pos {cap : Nat} {p : Pool} (h : PoolOk cap p) {k : Nat}
    (hk : 0 < p.free.count k + p.pend.count k + p.cur.toList.count k + p.prev.toList.count k + p.out.count k) : k < cap := by
  have := (roles_iff_count cap p).1 h.roles k
  split at this <;> omega

/-! ### The bodies -/

/-- `PoolOk` is about the roles, the bounds, the lock and the flags only. -/
theorem PoolOk.of_same {cap : Nat} {p q : Pool} (h : PoolOk cap p)
    (hr : ∀ k, q.free.count k + q.pend.count k + q.cur.toList.count k + q.prev.toList.count k + q.out.count k =
      p.free.count k + p.pend.count k + p.cur.toList.count k + p.prev.toList.count k + p.out.count k)
    (hp : q.pend.length ≤ Config.maxPend) (hs : q.shown < cap) (hl : q.lock = p.lock)
    (hc : q.chromaInUse.length = p.chromaInUse.length) : PoolOk cap q where
  roles := (roles_iff_count cap q).2 fun k => (hr k).trans ((roles_iff_count cap p).1 h.roles k)
  pendMax := hp
  shownIn := hs
  lockFree := hl.trans h.lockFree
  chroma := hc.trans h.chroma

theorem PoolOk.promote {cap : Nat} {p : Pool} (h : PoolOk cap p) : PoolOk cap p.promote := by
  unfold Pool.promote
  split
  · exact h
  · next k rest he =>
    have hk : k < cap := lt_of_pos h (by simp [he])
    have hm := h.pendMax
    rw [he] at hm
    simp only [List.length_cons] at hm
    split
    · refine h.of_same (fun n => ?_) (by simp; omega) hk rfl rfl
      simp [he, List.count_append, List.count_cons]; omega
    · refine h.of_same (fun n => ?_) (by simp; omega) hk rfl rfl
      simp [he, List.count_append, List.count_cons]; omega

theorem PoolOk.redisplay {cap : Nat} {p : Pool} (h : PoolOk cap p) : PoolOk cap p.redisplay := by
  unfold Pool.redisplay
  split
  · exact h
  · next k he =>
    refine h.of_same (fun n => ?_) h.pendMax (lt_of_pos h (by simp [he])) rfl rfl
    simp [he]; omega

theorem PoolOk.advanceFrame {cap : Nat} {p : Pool} (h : PoolOk cap p) : PoolOk cap p.advanceFrame := by
  unfold Pool.advanceFrame
  split
  · split
    · exact h.promote
    · split
      · exact { h.promote with }
      · exact { h.redisplay with }
  · exact h.promote

theorem PoolOk.blank {cap : Nat} {p : Pool} (b : Bool) (h : PoolOk cap p) : PoolOk cap (p.blank b) := by
  refine h.of_same (fun n => ?_) (by simp [Pool.blank]) h.shownIn rfl rfl
  simp [Pool.blank, List.count_append]; omega

theorem PoolOk.acquireFree {cap : Nat} {p q : Pool} {k : Nat} (h : PoolOk cap p) (ha : p.acquireFree = some (k, q)) :
    PoolOk cap q ∧ q.out = outInsert k p.out ∧ k ∉ p.out ∧ k < cap := by
  unfold Pool.acquireFree at ha
  split at ha
  · next he =>
    cases ha
    have hn := not_mem_out h (k := k) (by simp [he])
    refine ⟨h.of_same (fun n => ?_) h.pendMax h.shownIn rfl rfl, rfl, hn, lt_of_pos h (by simp [he])⟩
    simp [he, count_outInsert _ _ _ hn, List.count_cons]; omega
  · next he hv =>
    cases ha
    have hn := not_mem_out h (k := k) (by simp [hv])
    refine ⟨h.of_same (fun n => ?_) h.pendMax h.shownIn rfl rfl, rfl, hn, lt_of_pos h (by simp [hv])⟩
    simp [he, hv, count_outInsert _ _ _ hn, List.count_cons]; omega
  · next he hv hc =>
    split at ha
    · next hp =>
      cases ha
      have hn := not_mem_out h (k := k) (by simp [hc])
      have hl : k < cap := lt_of_pos h (by simp [hc])
      have hm := h.pendMax
      rw [hp] at hm
      simp only [List.length_cons] at hm
      refine ⟨h.of_same (fun n => ?_) (by simp; omega) (lt_of_pos h (by simp [hp])) rfl rfl, rfl, hn, hl⟩
      simp [he, hv, hc, hp, count_outInsert _ _ _ hn, List.count_cons]; omega
    · cases ha
      have hn := not_mem_out h (k := k) (by simp [hc])
      have hl : k < cap := lt_of_pos h (by simp [hc])
      refine ⟨h.of_same (fun n => ?_) h.pendMax h.shownIn rfl rfl, rfl, hn, hl⟩
      simp [he, hv, hc, count_outInsert _ _ _ hn, List.count_cons]; omega
  · cases ha

/-- When `acquire_free()` has nothing to give: nothing free, previous or current (R712). -/
theorem acquireFree_none {p : Pool} (h : p.acquireFree = none) : p.free = [] ∧ p.prev = none ∧ p.cur = none := by
  unfold Pool.acquireFree at h
  split at h
  · cases h
  · cases h
  · split at h <;> cases h
  · exact ⟨‹_›, ‹_›, ‹_›⟩

/-- With a capacity of three or more, and at most one handle outstanding, `acquire_free()` cannot fail (R712). -/
theorem PoolOk.acquireFree_some {cap : Nat} {p : Pool} (h : PoolOk cap p) (hc : p.out.length + 3 ≤ cap) :
    ∃ k q, p.acquireFree = some (k, q) := by
  cases ha : p.acquireFree with
  | some kq => exact ⟨kq.1, kq.2, rfl⟩
  | none =>
    obtain ⟨hf, hv, hr⟩ := acquireFree_none ha
    have hl := h.roles.length_eq
    have hm := h.pendMax
    simp [handlesInRoles, hf, hv, hr, Config.maxPend] at hl hm
    omega

/-- How often a handle has a role. -/
def roleCount (p : Pool) (n : Nat) : Nat :=
  p.free.count n + p.pend.count n + p.cur.toList.count n + p.prev.toList.count n + p.out.count n

theorem submitDeferred_roles (p : Pool) (k n : Nat) :
    roleCount (p.submitDeferred k) n = roleCount p n + if k = n then 1 else 0 := by
  unfold Pool.submitDeferred roleCount
  split
  · have : ∀ e, (p.pend.take e).count n + (p.pend.drop e).count n = p.pend.count n := fun e => by
      rw [← List.count_append, List.take_append_drop]
    have := this (if p.interlace = true then 2 else 1)
    simp only [List.count_append, List.count_cons, List.count_nil, beq_iff_eq]
    omega
  · simp only [List.count_append, List.count_cons, List.count_nil, beq_iff_eq]
    omega

theorem submitImmediate_roles (p : Pool) (k n : Nat) :
    roleCount (p.submitImmediate k true) n = roleCount p n + if k = n then 1 else 0 := by
  unfold Pool.submitImmediate roleCount
  dsimp only
  split
  · next hc => simp [hc, List.count_cons]; omega
  · next hc => simp [hc, List.count_cons]; omega

theorem submitDeferred_rest (p : Pool) (k : Nat) :
    (p.submitDeferred k).shown = p.shown ∧ (p.submitDeferred k).lock = p.lock ∧ (p.submitDeferred k).out = p.out ∧
      (p.submitDeferred k).chromaInUse = p.chromaInUse ∧
      (p.pend.length ≤ Config.maxPend → (p.submitDeferred k).pend.length ≤ Config.maxPend) := by
  unfold Pool.submitDeferred
  split
  · next h =>
    refine ⟨rfl, rfl, rfl, rfl, fun _ => ?_⟩
    simp only [List.length_append, List.length_drop, List.length_singleton, h, Config.maxPend]
    split <;> omega
  · next h =>
    refine ⟨rfl, rfl, rfl, rfl, fun _ => ?_⟩
    simp; omega

theorem submitImmediate_rest (p : Pool) (k : Nat) :
    (p.submitImmediate k true).shown = k ∧ (p.submitImmediate k true).lock = p.lock ∧
      (p.submitImmediate k true).out = p.out ∧ (p.submitImmediate k true).chromaInUse = p.chromaInUse ∧
      (p.submitImmediate k true).pend = [] := by
  unfold Pool.submitImmediate
  dsimp only
  split <;> exact ⟨rfl, rfl, rfl, rfl, rfl⟩

/-- The pool of `submit` once `h` has left `OUT` and its chroma flag is stored (R715). -/
def handedOver (p : Pool) (colour : Bool) (k : Nat) (coloured : Bool) : Pool :=
  { p with
    out := p.out.filter (· != k)
    chromaInUse := if colour then p.chromaInUse.set k coloured else p.chromaInUse }

theorem submit_eq (p : Pool) (colour deferred release coloured : Bool) (k : Nat) :
    p.submit colour k deferred release coloured =
      if p.out.contains k then
        some (if deferred && !p.blanked then (handedOver p colour k coloured).submitDeferred k
          else (handedOver p colour k coloured).submitImmediate k release)
      else none := rfl

theorem PoolOk.submit {cap : Nat} {p q : Pool} {colour deferred coloured : Bool} {k : Nat} (h : PoolOk cap p)
    (hs : p.submit colour k deferred true coloured = some q) :
    PoolOk cap q ∧ q.out = p.out.filter (· != k) ∧ k ∈ p.out := by
  rw [submit_eq] at hs
  split at hs
  · next hin =>
    have hin : k ∈ p.out := by simpa using hin
    have hpos := List.count_pos_iff.2 hin
    have hk : k < cap := lt_of_pos h (by omega)
    have hone := (roles_iff_count cap p).1 h.roles
    have hroles : ∀ n, roleCount (handedOver p colour k coloured) n + (if k = n then 1 else 0) = roleCount p n := by
      intro n
      unfold roleCount handedOver
      simp only [count_filter_ne]
      by_cases e : k = n
      · subst e
        have := hone k
        rw [if_pos hk] at this
        simp; omega
      · simp [e]
    have hlen : (handedOver p colour k coloured).chromaInUse.length = p.chromaInUse.length := by
      unfold handedOver; cases colour <;> simp
    cases hs
    split
    · obtain ⟨r1, r2, r3, r4, r5⟩ := submitDeferred_rest (handedOver p colour k coloured) k
      refine ⟨h.of_same (fun n => ?_) (r5 h.pendMax) (r1 ▸ h.shownIn) r2 (r4 ▸ hlen), r3, hin⟩
      exact (submitDeferred_roles _ k n).trans (hroles n)
    · obtain ⟨r1, r2, r3, r4, r5⟩ := submitImmediate_rest (handedOver p colour k coloured) k
      refine ⟨h.of_same (fun n => ?_) (by simp [r5]) (by rw [r1]; exact hk) r2 (r4 ▸ hlen), r3, hin⟩
      exact (submitImmediate_roles _ k n).trans (hroles n)
  · cases hs

end Sys2Proof.Safety
end

