-- ==== Sys2Proof/Laws/Memory.lean ====
section
/-! SUPPORT. What the memory operations do, once each: reading after writing, the canonical form, and what a CPU write or a push
leaves alone. -/

namespace Sys2Proof.Machine

/-! ### Storage: reading after writing -/

theorem Memory.read_remove (m : Memory) (a b : Nat) :
    (m.remove a).read b = if b = a then unlistedByte else m.read b := by
  induction m with
  | nil => simp [Memory.remove, Memory.read]
  | cons kv rest ih =>
    obtain ⟨k, v⟩ := kv
    by_cases h : k = a
    · simp only [Memory.remove, h, if_true, ih, Memory.read]
      split
      · rfl
      · rw [if_neg (fun e => ‹¬b = a› e.symm)]
    · simp only [Memory.remove, h, if_false, Memory.read, ih]
      by_cases hb : k = b
      · subst hb; simp [h]
      · simp [hb]

theorem Memory.read_insertAt (m : Memory) (a b : Nat) (v : Byte) :
    (m.remove a |>.insertAt a v).read b = if b = a then v else m.read b := by
  have key : ∀ m : Memory, (∀ kv ∈ m, kv.1 ≠ a) → (m.insertAt a v).read b = if b = a then v else m.read b := by
    intro m
    induction m with
    | nil =>
      intro _
      by_cases h : b = a
      · subst h; simp [Memory.insertAt, Memory.read]
      · simp [Memory.insertAt, Memory.read, h, Ne.symm h]
    | cons kv rest ih =>
      obtain ⟨k, w⟩ := kv
      intro hm
      have hk : k ≠ a := hm (k, w) (by simp)
      have ih := ih fun kv hkv => hm kv (List.mem_cons_of_mem _ hkv)
      simp only [Memory.insertAt]
      split
      · by_cases h : b = a
        · subst h; simp [Memory.read]
        · simp [Memory.read, h, Ne.symm h]
      · by_cases h : b = a
        · subst h; simp [Memory.read, ih, hk]
        · simp [Memory.read, ih, h]
  have hr : ∀ m : Memory, ∀ kv ∈ m.remove a, kv.1 ≠ a := by
    intro m
    induction m with
    | nil => simp [Memory.remove]
    | cons kv rest ih =>
      obtain ⟨k, w⟩ := kv
      simp only [Memory.remove]
      split
      · exact ih
      · intro kv hkv
        rcases List.mem_cons.1 hkv with rfl | hkv
        · assumption
        · exact ih kv hkv
  rw [key _ (hr m), Memory.read_remove]
  by_cases h : b = a <;> simp [h]

/-- Reading after writing: the byte written at its address, the old byte elsewhere. -/
theorem Memory.read_write (m : Memory) (a b : Nat) (v : Byte) :
    (m.write a v).read b = if b = a then v else m.read b := by
  unfold Memory.write
  split
  · next h => rw [Memory.read_remove, h]
  · exact Memory.read_insertAt m a b v

@[simp] theorem Memory.read_write_same (m : Memory) (a : Nat) (v : Byte) : (m.write a v).read a = v := by
  simp [Memory.read_write]

theorem Memory.read_write_other (m : Memory) {a b : Nat} (v : Byte) (h : b ≠ a) : (m.write a v).read b = m.read b := by
  simp [Memory.read_write, h]

/-! ### Storage: the canonical form -/

theorem Memory.wfFrom_mono {m : Memory} {lo lo' : Nat} (h : m.wfFrom lo = true) (hl : lo' ≤ lo) : m.wfFrom lo' = true := by
  cases m with
  | nil => rfl
  | cons kv rest =>
    obtain ⟨k, v⟩ := kv
    simp only [Memory.wfFrom, Bool.and_eq_true, decide_eq_true_eq] at h ⊢
    exact ⟨⟨by omega, h.1.2⟩, h.2⟩

theorem Memory.wfFrom_remove {m : Memory} {lo : Nat} (a : Nat) (h : m.wfFrom lo = true) : (m.remove a).wfFrom lo = true := by
  induction m generalizing lo with
  | nil => rfl
  | cons kv rest ih =>
    obtain ⟨k, v⟩ := kv
    simp only [Memory.wfFrom, Bool.and_eq_true, decide_eq_true_eq] at h
    simp only [Memory.remove]
    split
    · exact ih (Memory.wfFrom_mono h.2 (by omega))
    · simp only [Memory.wfFrom, Bool.and_eq_true, decide_eq_true_eq]
      exact ⟨h.1, ih h.2⟩

theorem Memory.mem_remove {m : Memory} {a : Nat} {kv : Host.Cell} (h : kv ∈ m.remove a) : kv.1 ≠ a := by
  induction m with
  | nil => simp [Memory.remove] at h
  | cons x rest ih =>
    obtain ⟨k, w⟩ := x
    simp only [Memory.remove] at h
    split at h
    · exact ih h
    · rcases List.mem_cons.1 h with rfl | h
      · assumption
      · exact ih h

theorem Memory.wfFrom_insertAt {m : Memory} {lo a : Nat} {v : Byte} (h : m.wfFrom lo = true) (hl : lo ≤ a)
    (hv : v ≠ unlistedByte) (hm : ∀ kv ∈ m, kv.1 ≠ a) : (m.insertAt a v).wfFrom lo = true := by
  induction m generalizing lo with
  | nil => simp [Memory.insertAt, Memory.wfFrom, hl, hv]
  | cons kv rest ih =>
    obtain ⟨k, w⟩ := kv
    have hk : k ≠ a := hm (k, w) (by simp)
    simp only [Memory.wfFrom, Bool.and_eq_true, decide_eq_true_eq] at h
    simp only [Memory.insertAt]
    split
    · simp only [Memory.wfFrom, Bool.and_eq_true, decide_eq_true_eq]
      exact ⟨⟨hl, by simpa using hv⟩, ⟨by omega, h.1.2⟩, h.2⟩
    · simp only [Memory.wfFrom, Bool.and_eq_true, decide_eq_true_eq]
      exact ⟨h.1, ih h.2 (by omega) fun kv hkv => hm kv (List.mem_cons_of_mem _ hkv)⟩

/-- A write keeps the canonical form. -/
theorem Memory.wf_write {m : Memory} (a : Nat) (v : Byte) (h : m.wf = true) : (m.write a v).wf = true := by
  unfold Memory.write
  split
  · exact Memory.wfFrom_remove a h
  · exact Memory.wfFrom_insertAt (Memory.wfFrom_remove a h) (Nat.zero_le _) ‹_› fun _ => Memory.mem_remove

theorem Memory.wf_writeBytes {m : Memory} (a : Nat) (vs : List Byte) (h : m.wf = true) : (m.writeBytes a vs).wf = true := by
  induction vs generalizing m a with
  | nil => exact h
  | cons v vs ih => exact ih (a + 1) (Memory.wf_write a v h)

/-! ### A CPU write (R74) -/

/-- All a CPU write can change: the storage, by one write where the page is writable. -/
theorem State.memWrite_eq (s : State) (a : Word) (v : Byte) :
    s.memWrite a v = { s with phys := if (s.entry a).writable then s.phys.write (s.physAddr a) v else s.phys } := by
  unfold State.memWrite; split <;> rfl

/-- A write to a page that is not writable changes nothing. -/
theorem State.memWrite_rom (s : State) (a : Word) (v : Byte) (h : (s.entry a).writable = false) : s.memWrite a v = s := by
  simp [State.memWrite, h]

@[simp] theorem State.memWrite_cfg (s : State) (a : Word) (v : Byte) : (s.memWrite a v).cfg = s.cfg := by
  rw [State.memWrite_eq]

@[simp] theorem State.memWrite_cpu (s : State) (a : Word) (v : Byte) : (s.memWrite a v).cpu = s.cpu := by
  rw [State.memWrite_eq]

@[simp] theorem State.memWrite_pt (s : State) (a : Word) (v : Byte) : (s.memWrite a v).pt = s.pt := by
  rw [State.memWrite_eq]

@[simp] theorem State.memWrite_ts (s : State) (a : Word) (v : Byte) : (s.memWrite a v).ts = s.ts := by
  rw [State.memWrite_eq]

@[simp] theorem State.memWrite_frames (s : State) (a : Word) (v : Byte) : (s.memWrite a v).frames = s.frames := by
  rw [State.memWrite_eq]

@[simp] theorem State.memWrite_ula (s : State) (a : Word) (v : Byte) : (s.memWrite a v).ula = s.ula := by
  rw [State.memWrite_eq]

@[simp] theorem State.memWrite_draw (s : State) (a : Word) (v : Byte) : (s.memWrite a v).draw = s.draw := by
  rw [State.memWrite_eq]

@[simp] theorem State.memWrite_pool (s : State) (a : Word) (v : Byte) : (s.memWrite a v).pool = s.pool := by
  rw [State.memWrite_eq]

@[simp] theorem State.memWrite_pix (s : State) (a : Word) (v : Byte) : (s.memWrite a v).pix = s.pix := by
  rw [State.memWrite_eq]

@[simp] theorem State.memWrite_chroma (s : State) (a : Word) (v : Byte) : (s.memWrite a v).chroma = s.chroma := by
  rw [State.memWrite_eq]

@[simp] theorem State.memWrite_cycles (s : State) (a : Word) (v : Byte) : (s.memWrite a v).cycles = s.cycles := by
  rw [State.memWrite_eq]

@[simp] theorem State.memWrite_ev (s : State) (a : Word) (v : Byte) : (s.memWrite a v).ev = s.ev := by
  rw [State.memWrite_eq]

@[simp] theorem State.memWrite_soundLog (s : State) (a : Word) (v : Byte) : (s.memWrite a v).soundLog = s.soundLog := by
  rw [State.memWrite_eq]

@[simp] theorem State.memWrite_soundFlushed (s : State) (a : Word) (v : Byte) : (s.memWrite a v).soundFlushed = s.soundFlushed := by
  rw [State.memWrite_eq]

@[simp] theorem State.memWrite_renView (s : State) (a : Word) (v : Byte) : (s.memWrite a v).renView = s.renView := by
  rw [State.memWrite_eq]

@[simp] theorem State.memWrite_hostResult (s : State) (a : Word) (v : Byte) : (s.memWrite a v).hostResult = s.hostResult := by
  rw [State.memWrite_eq]

@[simp] theorem State.memWrite_agenda (s : State) (a : Word) (v : Byte) : (s.memWrite a v).agenda = s.agenda := by
  rw [State.memWrite_eq]

@[simp] theorem State.memWrite_renBetween (s : State) (a : Word) (v : Byte) : (s.memWrite a v).renBetween = s.renBetween := by
  rw [State.memWrite_eq]

@[simp] theorem State.memWrite_freeCount (s : State) (a : Word) (v : Byte) : (s.memWrite a v).freeCount = s.freeCount := by
  rw [State.memWrite_eq]

@[simp] theorem State.entry_memWrite (s : State) (a b : Word) (v : Byte) : (s.memWrite a v).entry b = s.entry b := by
  simp [State.entry]

@[simp] theorem State.physAddr_memWrite (s : State) (a b : Word) (v : Byte) :
    (s.memWrite a v).physAddr b = s.physAddr b := by
  simp [State.physAddr]

/-- What any address reads as after a CPU write. -/
theorem State.memRead_memWrite (s : State) (a b : Word) (v : Byte) :
    (s.memWrite a v).memRead b =
      if (s.entry a).writable = true ∧ s.physAddr b = s.physAddr a then v else s.memRead b := by
  unfold State.memRead
  rw [State.physAddr_memWrite]
  unfold State.memWrite
  split
  · next h => simp [Memory.read_write, h]
  · next h => simp [h]

/-- A CPU write changes no address that names another byte. -/
theorem State.memRead_memWrite_other (s : State) {a b : Word} (v : Byte) (h : s.physAddr b ≠ s.physAddr a) :
    (s.memWrite a v).memRead b = s.memRead b := by
  simp [State.memRead_memWrite, h]

@[simp] theorem State.memRead_setCpu (s : State) (c : Cpu) (a : Word) : (s.setCpu c).memRead a = s.memRead a := rfl

@[simp] theorem State.memRead_setPc (s : State) (w a : Word) : (s.setPc w).memRead a = s.memRead a := rfl

@[simp] theorem State.memRead_setSp (s : State) (w a : Word) : (s.setSp w).memRead a = s.memRead a := rfl

@[simp] theorem State.entry_setSp (s : State) (w a : Word) : (s.setSp w).entry a = s.entry a := rfl

@[simp] theorem State.physAddr_setSp (s : State) (w a : Word) : (s.setSp w).physAddr a = s.physAddr a := rfl

theorem State.wf_memWrite {s : State} (a : Word) (v : Byte) (h : s.phys.wf = true) : (s.memWrite a v).phys.wf = true := by
  unfold State.memWrite
  split
  · exact Memory.wf_write _ _ h
  · exact h

/-! ### Shared operations on storage (R74, R77, R78): what each of them can do -/

/-- A CPU write changes the storage only. -/
theorem State.memWrite_only_phys (s : State) (a : Word) (v : Byte) : s.memWrite a v = { s with phys := (s.memWrite a v).phys } := by
  rw [State.memWrite_eq]

/-- Every byte of the storage after a CPU write. -/
theorem State.phys_memWrite_read (s : State) (a : Word) (v : Byte) (p : Nat) :
    (s.memWrite a v).phys.read p = if (s.entry a).writable = true ∧ p = s.physAddr a then v else s.phys.read p := by
  rw [State.memWrite_eq]
  by_cases h : (s.entry a).writable = true <;> simp [h, Memory.read_write]

/-- A CPU write and a change of the register file commute. -/
theorem State.memWrite_setCpu (s : State) (c : Cpu) (a : Word) (v : Byte) :
    (s.setCpu c).memWrite a v = (s.memWrite a v).setCpu c := by
  rw [State.memWrite_eq, State.memWrite_eq]; rfl

/-- A 16-bit write changes the storage only. -/
theorem State.memWrite16_only_phys (s : State) (a w : Word) :
    s.memWrite16 a w = { s with phys := (s.memWrite16 a w).phys } := by
  unfold State.memWrite16
  rw [State.memWrite_eq, State.memWrite_eq]

/-- A push: `SP` down by two, and the two bytes written, the high one first. -/
theorem State.push16_eq (s : State) (w : Word) :
    s.push16 w = ((s.memWrite (s.cpu.sp - 1) (hiByte w)).memWrite (s.cpu.sp - 2) (loByte w)).setSp (s.cpu.sp - 2) := by
  unfold State.push16 State.setSp
  rw [State.memWrite_setCpu, State.memWrite_setCpu, State.memWrite_setCpu]
  simp [State.setCpu]

end Sys2Proof.Machine
end

