-- ==== Sys2Proof/Laws/Frame.lean ====
section
/-! SUPPORT. What an instruction other than an output can change: `SameBlock` says that two states differ in the register file, in
storage that a writable page maps, in the cycles returned and in the count of free values, and in nothing else. -/

namespace Sys2Proof.Machine

/-- `t` is `s` but for the register file, the storage of writable pages, the cycles returned and the count of free values; the
storage keeps its canonical form, and what no writable page maps is unchanged. -/
structure SameBlock (s t : State) : Prop where
  cfg : t.cfg = s.cfg
  pt : t.pt = s.pt
  ts : t.ts = s.ts
  frames : t.frames = s.frames
  ula : t.ula = s.ula
  draw : t.draw = s.draw
  pool : t.pool = s.pool
  pix : t.pix = s.pix
  chroma : t.chroma = s.chroma
  ev : t.ev = s.ev
  soundLog : t.soundLog = s.soundLog
  soundFlushed : t.soundFlushed = s.soundFlushed
  renView : t.renView = s.renView
  hostResult : t.hostResult = s.hostResult
  agenda : t.agenda = s.agenda
  renBetween : t.renBetween = s.renBetween
  physWf : s.phys.wf = true → t.phys.wf = true
  rom : ∀ p, (∀ a, (s.entry a).writable = true → s.physAddr a ≠ p) → t.phys.read p = s.phys.read p

namespace SameBlock

theorem refl (s : State) : SameBlock s s := by constructor <;> intros <;> first | rfl | assumption

theorem setCpu {s t : State} (c : Cpu) (h : SameBlock s t) : SameBlock s (t.setCpu c) :=
  { h with }

theorem took {s t : State} (n : Nat) (h : SameBlock s t) : SameBlock s (t.took n) :=
  { h with }

theorem drawn {s t : State} (h : SameBlock s t) : SameBlock s t.drawn :=
  { h with }

theorem memWrite {s t : State} (a : Word) (v : Byte) (h : SameBlock s t) : SameBlock s (t.memWrite a v) where
  cfg := by simpa using h.cfg
  pt := by simpa using h.pt
  ts := by simpa using h.ts
  frames := by simpa using h.frames
  ula := by simpa using h.ula
  draw := by simpa using h.draw
  pool := by simpa using h.pool
  pix := by simpa using h.pix
  chroma := by simpa using h.chroma
  ev := by simpa using h.ev
  soundLog := by simpa using h.soundLog
  soundFlushed := by simpa using h.soundFlushed
  renView := by simpa using h.renView
  hostResult := by simpa using h.hostResult
  agenda := by simpa using h.agenda
  renBetween := by simpa using h.renBetween
  physWf := fun w => State.wf_memWrite a v (h.physWf w)
  rom := by
    intro p hp
    have he : t.entry a = s.entry a := by simp [State.entry, h.pt]
    rw [← h.rom p hp]
    unfold State.memWrite
    split
    · next hw =>
      rw [he] at hw
      have := hp a hw
      rw [State.physAddr, ← he] at this
      exact Memory.read_write_other _ _ (Ne.symm this)
    · rfl

theorem memWrite16 {s t : State} (a w : Word) (h : SameBlock s t) : SameBlock s (t.memWrite16 a w) :=
  (h.memWrite a _).memWrite (a + 1) _

theorem push16 {s t : State} (w : Word) (h : SameBlock s t) : SameBlock s (t.push16 w) :=
  (((h.setCpu _).memWrite _ _).setCpu _).memWrite _ _

theorem setReg {s t : State} (r : Reg8) (v : Byte) (h : SameBlock s t) : SameBlock s (t.setReg r v) := h.setCpu _

theorem setPair {s t : State} (p : Pair) (w : Word) (h : SameBlock s t) : SameBlock s (t.setPair p w) := h.setCpu _

theorem setIdx {s t : State} (x : Idx) (w : Word) (h : SameBlock s t) : SameBlock s (t.setIdx x w) := h.setCpu _

theorem setHalf {s t : State} (x : Idx) (hf : Half) (v : Byte) (h : SameBlock s t) : SameBlock s (t.setHalf x hf v) := h.setCpu _

theorem setF {s t : State} (f : Byte) (h : SameBlock s t) : SameBlock s (t.setF f) := h.setCpu _

theorem setAF {s t : State} (a f : Byte) (h : SameBlock s t) : SameBlock s (t.setAF a f) := h.setCpu _

theorem setHl {s t : State} (w : Word) (h : SameBlock s t) : SameBlock s (t.setHl w) := h.setCpu _

theorem setPc {s t : State} (w : Word) (h : SameBlock s t) : SameBlock s (t.setPc w) := h.setCpu _

theorem setSp {s t : State} (w : Word) (h : SameBlock s t) : SameBlock s (t.setSp w) := h.setCpu _

theorem incR {s t : State} (h : SameBlock s t) : SameBlock s (t.incR) := h.setCpu _

theorem setPfx {s t : State} (p : Pfx) (h : SameBlock s t) : SameBlock s (t.setPfx p) := h.setCpu _

theorem popped {s t : State} (h : SameBlock s t) : SameBlock s (t.popped) := h.setCpu _

theorem trans {s t u : State} (h : SameBlock s t) (k : SameBlock t u) : SameBlock s u where
  cfg := k.cfg.trans h.cfg
  pt := k.pt.trans h.pt
  ts := k.ts.trans h.ts
  frames := k.frames.trans h.frames
  ula := k.ula.trans h.ula
  draw := k.draw.trans h.draw
  pool := k.pool.trans h.pool
  pix := k.pix.trans h.pix
  chroma := k.chroma.trans h.chroma
  ev := k.ev.trans h.ev
  soundLog := k.soundLog.trans h.soundLog
  soundFlushed := k.soundFlushed.trans h.soundFlushed
  renView := k.renView.trans h.renView
  hostResult := k.hostResult.trans h.hostResult
  agenda := k.agenda.trans h.agenda
  renBetween := k.renBetween.trans h.renBetween
  physWf := fun w => k.physWf (h.physWf w)
  rom := by
    intro p hp
    rw [← h.rom p hp]
    apply k.rom
    intro a ha
    have he : t.entry a = s.entry a := by simp [State.entry, h.pt]
    rw [he] at ha
    rw [State.physAddr, he]
    exact hp a ha

theorem incRTimes {s t : State} (n : Nat) (h : SameBlock s t) : SameBlock s (t.incRTimes n) := by
  induction n generalizing t with
  | zero => exact h
  | succ n ih => exact ih (h.setCpu _)

theorem fetched {s t : State} (n m1 : Nat) (h : SameBlock s t) : SameBlock s (t.fetched n m1) :=
  (h.setCpu _).incRTimes m1

end SameBlock

/-- An instruction's outcome is a next state that `SameBlock` relates to the state before. -/
def Quiet (s : State) (o : Out) : Prop := ∃ t, o = .next t ∧ SameBlock s t

theorem Quiet.finish {s t : State} (n : Nat) (h : SameBlock s t) : Quiet s (finish n t) := ⟨_, rfl, h.took n⟩

theorem Quiet.ite {s : State} {c : Prop} {x y : Out} [Decidable c] (hx : Quiet s x) (hy : Quiet s y) :
    Quiet s (if c then x else y) := by
  split <;> assumption

theorem SameBlock.ite {s x y : State} {c : Prop} [Decidable c] (hx : SameBlock s x) (hy : SameBlock s y) :
    SameBlock s (if c then x else y) := by
  split <;> assumption

end Sys2Proof.Machine
end

