-- ==== Sys2Proof/Laws/Quiet.lean ====
section
/-! SUPPORT. Every instruction that is neither an input or output nor a prefix completes, and changes no more than `SameBlock`
allows: one lemma for all of them. -/

namespace Sys2Proof.Machine

/-! ### The shared operations -/

namespace SameBlock

theorem aluAdd {s t : State} (v : Byte) (h : SameBlock s t) : SameBlock s (t.aluAdd v) :=
  h.setCpu _

theorem aluAdc {s t : State} (v : Byte) (h : SameBlock s t) : SameBlock s (t.aluAdc v) :=
  h.setCpu _

theorem aluSub {s t : State} (v : Byte) (h : SameBlock s t) : SameBlock s (t.aluSub v) :=
  h.setCpu _

theorem aluSbc {s t : State} (v : Byte) (h : SameBlock s t) : SameBlock s (t.aluSbc v) :=
  h.setCpu _

theorem aluAnd {s t : State} (v : Byte) (h : SameBlock s t) : SameBlock s (t.aluAnd v) :=
  h.setCpu _

theorem aluXor {s t : State} (v : Byte) (h : SameBlock s t) : SameBlock s (t.aluXor v) :=
  h.setCpu _

theorem aluOr {s t : State} (v : Byte) (h : SameBlock s t) : SameBlock s (t.aluOr v) :=
  h.setCpu _

theorem aluCp {s t : State} (v : Byte) (h : SameBlock s t) : SameBlock s (t.aluCp v) :=
  h.setCpu _

theorem incAt {s t : State} (a : Word) (h : SameBlock s t) : SameBlock s (t.incAt a) :=
  (h.memWrite _ _).setCpu _

theorem decAt {s t : State} (a : Word) (h : SameBlock s t) : SameBlock s (t.decAt a) :=
  (h.memWrite _ _).setCpu _

theorem loadSpecial {s t : State} (v : Byte) (h : SameBlock s t) : SameBlock s (t.loadSpecial v) :=
  h.setCpu _

theorem negate {s t : State} (h : SameBlock s t) : SameBlock s (t.negate) :=
  h.setCpu _

theorem setIm {s t : State} (m : IntMode) (h : SameBlock s t) : SameBlock s (t.setIm m) :=
  h.setCpu _

theorem rotReg {s t : State} (op : RotOp) (r : Reg8) (h : SameBlock s t) : SameBlock s (t.rotReg op r) :=
  (h.setCpu _).setCpu _

theorem rotAt {s t : State} (op : RotOp) (a : Word) (h : SameBlock s t) : SameBlock s (t.rotAt op a) :=
  (h.memWrite _ _).setCpu _

theorem rotAcc {s t : State} (op : RotOp) (h : SameBlock s t) : SameBlock s (t.rotAcc op) :=
  h.setCpu _

theorem bitTest {s t : State} (b : BitVec 3) (v xy : Byte) (h : SameBlock s t) : SameBlock s (t.bitTest b v xy) :=
  h.setCpu _

theorem rotAtCopy {s t : State} (op : RotOp) (a : Word) (r : Reg8) (h : SameBlock s t) : SameBlock s (t.rotAtCopy op a r) :=
  (h.rotAt op a).setCpu _

theorem writeCopy {s t : State} (a : Word) (r : Reg8) (v : Byte) (h : SameBlock s t) : SameBlock s (t.writeCopy a r v) :=
  (h.memWrite a v).setCpu _

theorem jumpRel {s t : State} (e : Byte) (h : SameBlock s t) : SameBlock s (t.jumpRel e) :=
  h.setCpu _

theorem call {s t : State} (w : Word) (h : SameBlock s t) : SameBlock s (t.call w) :=
  (h.push16 _).setCpu _

theorem doReturn {s t : State} (h : SameBlock s t) : SameBlock s (t.doReturn) :=
  (h.setCpu _).setCpu _

theorem decB {s t : State} (h : SameBlock s t) : SameBlock s (t.decB) :=
  h.setCpu _

theorem returnFromInterrupt {s t : State} (h : SameBlock s t) : SameBlock s (t.returnFromInterrupt) :=
  (h.setCpu _).setCpu _

theorem ldBlock {s t : State} (w : Word) (h : SameBlock s t) : SameBlock s (t.ldBlock w) :=
  (h.memWrite _ _).setCpu _

theorem cpBlock {s t : State} (w : Word) (h : SameBlock s t) : SameBlock s (t.cpBlock w) :=
  h.setCpu _

end SameBlock

theorem Quiet.finishBlock {s t : State} (again : Bool) (h : SameBlock s t) : Quiet s (finishBlock again t) :=
  Quiet.ite (Quiet.finish 21 (h.setPc _)) (Quiet.finish 16 h)

set_option linter.unreachableTactic false in
set_option linter.unusedTactic false in
theorem exec_quiet (i : Instr) (s : State) (hp : i.isPort = false) (hx : i.isPrefixRow = false) : Quiet s (exec i s) := by
  cases i
  all_goals first
    | (cases hp; done)
    | (cases hx; done)
    | skip
  all_goals
    clear hp hx
    dsimp only [exec, execNop, execLdPairNn, execLdAtBcA, execIncPair, execIncR, execDecR, execLdRN, execRlca, execExAfAf,
      execAddHlPair, execLdAAtBc, execDecPair, execRrca, execDjnz, execLdAtDeA, execRla, execJr, execLdAAtDe,
      execRra, execJrNz, execLdAtNnHl, execDaa, execJrZ, execLdHlAtNn, execCpl, execJrNc, execLdAtNnA, execIncAtHl,
      execDecAtHl, execLdAtHlN, execScf, execJrC, execLdAAtNn, execCcf, execLdRR, execLdRAtHl, execLdAtHlR,
      execHalt, execAddAR, execAddAAtHl, execAddAN, execAdcAR, execAdcAAtHl, execAdcAN, execSubR, execSubAtHl,
      execSubN, execSbcAR, execSbcAAtHl, execSbcAN, execAndR, execAndAtHl, execAndN, execXorR, execXorAtHl,
      execXorN, execOrR, execOrAtHl, execOrN, execCpR, execCpAtHl, execCpN, execRetCc, execPopPair, execJpCcNn,
      execJpNn, execExAtSpHl, execDi, execCallCcNn, execPushPair, execRst, execRet, execExx, execJpHl, execLdSpHl,
      execExDeHl, execEi, execCallNn, execRlcR, execRlcAtHl, execRrcR, execRrcAtHl, execRlR, execRlAtHl, execRrR,
      execRrAtHl, execSlaR, execSlaAtHl, execSraR, execSraAtHl, execSllR, execSllAtHl, execSrlR, execSrlAtHl,
      execBitR, execBitAtHl, execResR, execResAtHl, execSetR, execSetAtHl, execSbcHlPair, execAdcHlPair,
      execLdAtNnPair, execLdPairAtNn, execNeg, execNegMirror, execRetn, execReti, execRetnMirror, execIm0, execIm1,
      execIm2, execIm0Mirror4E, execIm0Mirror66, execIm0Mirror6E, execIm1Mirror, execIm2Mirror, execLdIA,
      execLdRefreshA, execLdAI, execLdARefresh, execRrd, execRld, execNopEd77, execNopEd7F, execLdi, execCpi,
      execLdd, execCpd, execLdir, execCpir, execLddr, execCpdr, execNopEdUndefined, execLdIdxNn, execAddIdxPair,
      execLdAtNnIdx, execIncIdx, execIncHalf, execDecHalf, execLdHalfN, execLdIdxAtNn, execDecIdx, execIncAtIdx,
      execDecAtIdx, execLdAtIdxN, execLdRAtIdx, execLdAtIdxR, execLdRHalf, execLdHalfR, execAddAHalf, execAddAAtIdx,
      execAdcAHalf, execAdcAAtIdx, execSubHalf, execSubAtIdx, execSbcAHalf, execSbcAAtIdx, execAndHalf,
      execAndAtIdx, execXorHalf, execXorAtIdx, execOrHalf, execOrAtIdx, execCpHalf, execCpAtIdx, execPopIdx,
      execExAtSpIdx, execPushIdx, execJpIdx, execLdSpIdx, execRlcAtIdx, execRlcAtIdxR, execRrcAtIdx, execRrcAtIdxR,
      execRlAtIdx, execRlAtIdxR, execRrAtIdx, execRrAtIdxR, execSlaAtIdx, execSlaAtIdxR, execSraAtIdx,
      execSraAtIdxR, execSllAtIdx, execSllAtIdxR, execSrlAtIdx, execSrlAtIdxR, execBitAtIdx, execBitAtIdxMirror,
      execResAtIdx, execResAtIdxR, execSetAtIdx, execSetAtIdxR]
    repeat' with_reducible first
      | exact SameBlock.refl s
      | apply Quiet.finish
      | apply Quiet.finishBlock
      | apply Quiet.ite
      | apply SameBlock.aluAdd
      | apply SameBlock.aluAdc
      | apply SameBlock.aluSub
      | apply SameBlock.aluSbc
      | apply SameBlock.aluAnd
      | apply SameBlock.aluXor
      | apply SameBlock.aluOr
      | apply SameBlock.aluCp
      | apply SameBlock.incAt
      | apply SameBlock.decAt
      | apply SameBlock.loadSpecial
      | apply SameBlock.negate
      | apply SameBlock.setIm
      | apply SameBlock.rotReg
      | apply SameBlock.rotAt
      | apply SameBlock.rotAcc
      | apply SameBlock.bitTest
      | apply SameBlock.rotAtCopy
      | apply SameBlock.writeCopy
      | apply SameBlock.jumpRel
      | apply SameBlock.call
      | apply SameBlock.doReturn
      | apply SameBlock.decB
      | apply SameBlock.returnFromInterrupt
      | apply SameBlock.ldBlock
      | apply SameBlock.cpBlock
      | apply SameBlock.setReg
      | apply SameBlock.setPair
      | apply SameBlock.setIdx
      | apply SameBlock.setHalf
      | apply SameBlock.setF
      | apply SameBlock.setAF
      | apply SameBlock.setHl
      | apply SameBlock.setPc
      | apply SameBlock.setSp
      | apply SameBlock.incR
      | apply SameBlock.setPfx
      | apply SameBlock.popped
      | apply SameBlock.memWrite
      | apply SameBlock.memWrite16
      | apply SameBlock.push16
      | apply SameBlock.setCpu
      | apply SameBlock.drawn
      | apply SameBlock.ite

end Sys2Proof.Machine
end

