-- ==== Sys2Proof/Laws/Block.lean ====
section
/-! SUPPORT. What each operation of the block beyond the CPU does to the invariant: the pool operations under the lock, the raster
ticks, the port events and the actions of REN. -/

namespace Sys2Proof.Safety

open Machine

/-- The invariant with the outstanding handles named apart from the draw buffer: what holds also between the two pool operations of
a hand-off. -/
structure InvOut (o : List Nat) (s : State) : Prop where
  config  : ConfigOk s
  storage : StorageOk s
  pool    : PoolOk s.cfg.poolCap s.pool
  out     : s.pool.out = o
  counter : s.ts < s.cfg.fieldModulus

theorem Inv.toOut {s : State} (h : Inv s) : InvOut s.draw.toList s := { h with out := h.draw }

theorem InvOut.toInv {s : State} (h : InvOut s.draw.toList s) : Inv s := { h with draw := h.out }

/-- Nothing the invariant speaks of but the draw link differs. -/
theorem InvOut.congr {o : List Nat} {s t : State} (h : InvOut o s) (hc : t.cfg = s.cfg) (hp : t.pt = s.pt)
    (hm : t.phys.wf = true) (hx : t.pix = s.pix) (hy : t.chroma = s.chroma) (hl : t.pool = s.pool) (ht : t.ts = s.ts) :
    InvOut o t where
  config := by
    obtain ⟨a, b, c, d, e, f⟩ := h.config
    constructor <;> simpa [hc, hp]
  storage := by
    obtain ⟨a, b, c, d, e⟩ := h.storage
    constructor <;> simp_all
  pool := by rw [hc, hl]; exact h.pool
  out := by rw [hl]; exact h.out
  counter := by rw [hc, ht]; exact h.counter

theorem InvOut.setUla {o : List Nat} {s : State} (u : Ula) (h : InvOut o s) : InvOut o (s.setUla u) :=
  h.congr rfl rfl h.storage.phys rfl rfl rfl rfl

/-- What `SameBlock` relates, the invariant does not tell apart. -/
theorem InvOut.sameBlock {o : List Nat} {s t : State} (h : InvOut o s) (k : SameBlock s t) : InvOut o t :=
  h.congr k.cfg k.pt (k.physWf h.storage.phys) k.pix k.chroma k.pool k.ts

theorem Inv.sameBlock {s t : State} (h : Inv s) (k : SameBlock s t) : Inv t := by
  have := h.toOut.sameBlock k
  rw [← k.draw] at this
  exact this.toInv

/-! ### The lock and the render context -/

/-- What an operation of REN, or REN's turn, leaves alone of EMU's. -/
structure RenOnly (s t : State) : Prop where
  cfg : t.cfg = s.cfg
  cpu : t.cpu = s.cpu
  pt : t.pt = s.pt
  phys : t.phys = s.phys
  ts : t.ts = s.ts
  frames : t.frames = s.frames
  ula : t.ula = s.ula
  draw : t.draw = s.draw
  pix : t.pix = s.pix
  chroma : t.chroma = s.chroma
  cycles : t.cycles = s.cycles
  ev : t.ev = s.ev
  soundLog : t.soundLog = s.soundLog
  soundFlushed : t.soundFlushed = s.soundFlushed
  hostResult : t.hostResult = s.hostResult
  agenda : t.agenda = s.agenda
  freeCount : t.freeCount = s.freeCount

theorem RenOnly.refl (s : State) : RenOnly s s := by constructor <;> rfl

theorem RenOnly.trans {s t u : State} (h : RenOnly s t) (k : RenOnly t u) : RenOnly s u where
  cfg := k.cfg.trans h.cfg
  cpu := k.cpu.trans h.cpu
  pt := k.pt.trans h.pt
  phys := k.phys.trans h.phys
  ts := k.ts.trans h.ts
  frames := k.frames.trans h.frames
  ula := k.ula.trans h.ula
  draw := k.draw.trans h.draw
  pix := k.pix.trans h.pix
  chroma := k.chroma.trans h.chroma
  cycles := k.cycles.trans h.cycles
  ev := k.ev.trans h.ev
  soundLog := k.soundLog.trans h.soundLog
  soundFlushed := k.soundFlushed.trans h.soundFlushed
  hostResult := k.hostResult.trans h.hostResult
  agenda := k.agenda.trans h.agenda
  freeCount := k.freeCount.trans h.freeCount

theorem InvOut.withPool {o o' : List Nat} {s : State} {p : Pool} (h : InvOut o s) (hp : PoolOk s.cfg.poolCap p) (ho : p.out = o') :
    InvOut o' { s with pool := p } :=
  { h with pool := hp, out := ho, config := { h.config with }, storage := { h.storage with } }

theorem PoolOk.relock {cap : Nat} {p : Pool} (h : PoolOk cap p) : PoolOk cap { p with lock := .free } :=
  { h with lockFree := rfl }

/-- A body that never stops runs, under a free lock. -/
theorem locked_ok (s : State) (who : LockState) (body : Pool → Except Fault (Pool × (State → State))) (hl : s.pool.lock = .free) :
    s.locked who body =
      match body { s.pool with lock := who } with
      | .ok (p, after) => .next (after { s with pool := { p with lock := .free } })
      | .error r => .fault r := by
  unfold State.locked
  exact (if_pos hl).trans rfl

/-- The lock a body runs under plays no part in the roles. -/
theorem promote_lock (p : Pool) (l : LockState) : ({ p with lock := l } : Pool).promote = { p.promote with lock := l } := by
  unfold Pool.promote
  dsimp only
  split
  · rfl
  · split <;> rfl

theorem advanceFrame_lock (p : Pool) (l : LockState) :
    ({ p with lock := l } : Pool).advanceFrame = { p.advanceFrame with lock := l } := by
  unfold Pool.advanceFrame
  have hr : ({ p with lock := l } : Pool).redisplay = { p.redisplay with lock := l } := by
    unfold Pool.redisplay; dsimp only; split <;> rfl
  rw [promote_lock, hr]
  dsimp only
  split
  · split
    · rfl
    · split <;> rfl
  · rfl

theorem acquireFree_lock (p : Pool) (l : LockState) :
    ({ p with lock := l } : Pool).acquireFree = (p.acquireFree).map fun kq => (kq.1, { kq.2 with lock := l }) := by
  unfold Pool.acquireFree
  dsimp only
  split <;> try rfl
  split <;> rfl

theorem submit_lock (p : Pool) (l : LockState) (colour deferred release coloured : Bool) (k : Nat) :
    ({ p with lock := l } : Pool).submit colour k deferred release coloured =
      (p.submit colour k deferred release coloured).map fun q => { q with lock := l } := by
  unfold Pool.submit
  dsimp only
  split
  · simp only [Option.map_some]
    split
    · unfold Pool.submitDeferred; dsimp only; split <;> rfl
    · unfold Pool.submitImmediate
      dsimp only
      split
      · rfl
      · split <;> rfl
  · rfl

theorem promote_out (p : Pool) : p.promote.out = p.out := by
  unfold Pool.promote
  split
  · rfl
  · split <;> rfl

theorem advanceFrame_out (p : Pool) : p.advanceFrame.out = p.out := by
  have hr : p.redisplay.out = p.out := by unfold Pool.redisplay; split <;> rfl
  unfold Pool.advanceFrame
  split
  · split
    · exact promote_out p
    · split
      · exact promote_out p
      · exact hr
  · exact promote_out p

/-- An operation of REN completes, keeps the invariant, and touches nothing of EMU's. -/
theorem renOp_ok {o : List Nat} {s : State} (op : RenOp) (h : InvOut o s) :
    ∃ t, s.renOp op = .next t ∧ InvOut o t ∧ RenOnly s t ∧ t.renBetween = s.renBetween := by
  have hl := h.pool.lockFree
  cases op with
  | current =>
    refine ⟨{ s with pool := { s.pool.promote with lock := .free }, renView := some (s.pool.promote.view s.cfg.colour) },
      ?_, ?_, by constructor <;> rfl, rfl⟩
    · unfold State.renOp
      rw [locked_ok _ _ _ hl]
      simp only [promote_lock]
      rfl
    · have := h.withPool (p := { s.pool.promote with lock := .free }) h.pool.promote.relock
        (o' := o) ((promote_out s.pool).trans h.out)
      exact { this with config := { this.config with }, storage := { this.storage with } }
  | advanceFrame =>
    refine ⟨{ s with pool := { s.pool.advanceFrame with lock := .free } }, ?_,
      h.withPool h.pool.advanceFrame.relock ((advanceFrame_out s.pool).trans h.out), by constructor <;> rfl, rfl⟩
    refine (locked_ok s .ren (fun p => .ok (p.advanceFrame, id)) hl).trans ?_
    dsimp only
    rw [advanceFrame_lock]
    rfl
  | setReady =>
    exact ⟨_, rfl, h.withPool { h.pool with } h.out, by constructor <;> rfl, rfl⟩

theorem runRen_ok {o : List Nat} {s : State} (ops : List RenOp) (h : InvOut o s) :
    ∃ t, runRen ops s = .next t ∧ InvOut o t ∧ RenOnly s t := by
  induction ops generalizing s with
  | nil => exact ⟨s, rfl, h, RenOnly.refl s⟩
  | cons op ops ih =>
    obtain ⟨t, ht, hi, hr, -⟩ := renOp_ok op h
    obtain ⟨u, hu, hj, hq⟩ := ih hi
    exact ⟨u, by rw [runRen, ht]; exact hu, hj, hr.trans hq⟩

theorem renTurn_ok {o : List Nat} {s : State} (h : InvOut o s) : ∃ t, s.renTurn = .next t ∧ InvOut o t ∧ RenOnly s t := by
  unfold State.renTurn
  split
  · exact ⟨s, rfl, h, RenOnly.refl s⟩
  · next ops rest he =>
    have h' : InvOut o { s with renBetween := rest } :=
      { h with config := { h.config with }, storage := { h.storage with } }
    obtain ⟨t, ht, hi, hr⟩ := runRen_ok ops h'
    exact ⟨t, ht, hi, { hr with }⟩

/-! ### EMU's pool operations -/

/-- EMU's acquisition with nothing outstanding: it keeps the invariant, and completes with a capacity of three or more (R712). -/
theorem acquireDraw_ok {s : State} (h : InvOut [] s) :
    (∀ t, s.acquireDraw = .next t → Inv t ∧ t.draw.isSome ∧ t.cfg = s.cfg ∧ t.ula = s.ula ∧ t.cpu = s.cpu ∧ t.phys = s.phys ∧
      t.pt = s.pt ∧ t.agenda = s.agenda ∧ t.ev = s.ev ∧ t.cycles = s.cycles ∧ t.ts = s.ts ∧ t.frames = s.frames ∧
      t.soundLog = s.soundLog ∧ t.soundFlushed = s.soundFlushed ∧ t.pix = s.pix ∧ t.chroma = s.chroma) ∧
    (3 ≤ s.cfg.poolCap → ∃ t, s.acquireDraw = .next t) := by
  obtain ⟨u, hu, hi, hr⟩ := renTurn_ok h
  have hl := hi.pool.lockFree
  have he : s.acquireDraw =
      match u.pool.acquireFree with
      | some (k, q) => .next { { u with pool := { q with lock := .free } } with draw := some k }
      | none => .fault (.configError .poolExhausted) := by
    simp only [State.acquireDraw, hu, andThen_next, locked_ok _ _ _ hl, acquireFree_lock]
    cases u.pool.acquireFree with
    | none => rfl
    | some kq => rfl
  constructor
  · intro t ht
    rw [he] at ht
    split at ht
    · next k q hq =>
      cases ht
      obtain ⟨hp, ho, -, -⟩ := hi.pool.acquireFree hq
      have ho : q.out = [k] := by rw [ho, hi.out]; rfl
      have := hi.withPool (p := { q with lock := .free }) hp.relock (o' := [k]) ho
      refine ⟨InvOut.toInv { this with config := { this.config with }, storage := { this.storage with } }, rfl, hr.cfg, hr.ula,
        hr.cpu, hr.phys, hr.pt, hr.agenda, hr.ev, hr.cycles, hr.ts, hr.frames, hr.soundLog, hr.soundFlushed, hr.pix, hr.chroma⟩
    · cases ht
  · intro hc
    obtain ⟨k, q, hq⟩ := hi.pool.acquireFree_some (by rw [hi.out, hr.cfg]; simpa using hc)
    exact ⟨_, by rw [he, hq]⟩

/-- EMU's hand-over of the one outstanding handle completes, and leaves nothing outstanding. -/
theorem submitDraw_ok {s : State} {k : Nat} (h : InvOut [k] s) :
    ∃ t, s.submitDraw k = .next t ∧ InvOut [] t ∧ RenOnly s t := by
  obtain ⟨u, hu, hi, hr⟩ := renTurn_ok h
  have hl := hi.pool.lockFree
  have hs : ∃ q, u.pool.submit u.cfg.colour k (u.cfg.frameSync != .off) true u.cfg.colour = some q := by
    rw [submit_eq, hi.out]; simp
  obtain ⟨q, hq⟩ := hs
  obtain ⟨hp, ho, -⟩ := hi.pool.submit hq
  refine ⟨{ u with pool := { q with lock := .free } }, ?_, hi.withPool hp.relock ?_, { hr with }⟩
  · simp only [State.submitDraw, hu, andThen_next, locked_ok _ _ _ hl, submit_lock, hq]; rfl
  · show q.out = []; rw [ho, hi.out]; simp

/-- `blank` completes, and keeps the invariant. -/
theorem blankDisplay_ok {o : List Nat} {s : State} (b : Bool) (h : InvOut o s) :
    ∃ t, s.blankDisplay b = .next t ∧ InvOut o t ∧ RenOnly s t := by
  obtain ⟨u, hu, hi, hr⟩ := renTurn_ok h
  have hl := hi.pool.lockFree
  refine ⟨{ u with pool := { u.pool.blank b with lock := .free } }, ?_, hi.withPool (hi.pool.blank b).relock hi.out, { hr with }⟩
  simp only [State.blankDisplay, hu, andThen_next, locked_ok _ _ _ hl]; rfl

end Sys2Proof.Safety
end

