-- ==== Sys2Proof/Laws/Ula.lean ====
section
/-! SUPPORT. What the raster and sync operations do to the invariant: each keeps it and leaves the CPU, its storage and the counter
alone; and none stops with a pool of three buffers or more. Under the default port table the port events are R505 and R506. -/

namespace Sys2Proof.Safety

open Machine

/-- `t` comes from `s` by an operation of the ULA: the invariant holds, and the CPU's state and the counter are those of `s`. -/
structure UlaStep (s t : State) : Prop where
  inv : Inv t
  cfg : t.cfg = s.cfg
  cpu : t.cpu = s.cpu
  pt : t.pt = s.pt
  phys : t.phys = s.phys
  ts : t.ts = s.ts
  frames : t.frames = s.frames
  cycles : t.cycles = s.cycles
  agenda : t.agenda = s.agenda
  soundLog : t.soundLog = s.soundLog
  soundFlushed : t.soundFlushed = s.soundFlushed
  draw : s.draw.isSome → t.draw.isSome

theorem UlaStep.trans {s t u : State} (h : UlaStep s t) (k : UlaStep t u) : UlaStep s u where
  inv := k.inv
  cfg := k.cfg.trans h.cfg
  cpu := k.cpu.trans h.cpu
  pt := k.pt.trans h.pt
  phys := k.phys.trans h.phys
  ts := k.ts.trans h.ts
  frames := k.frames.trans h.frames
  cycles := k.cycles.trans h.cycles
  agenda := k.agenda.trans h.agenda
  soundLog := k.soundLog.trans h.soundLog
  soundFlushed := k.soundFlushed.trans h.soundFlushed
  draw := fun d => k.draw (h.draw d)

/-- Whatever next state the outcome is, it is an `UlaStep`; and with three buffers or more there is one. -/
structure UlaOut (s : State) (o : Out) : Prop where
  step : ∀ t, o = .next t → UlaStep s t
  total : 3 ≤ s.cfg.poolCap → ∃ t, o = .next t

theorem UlaOut.next {s t : State} (h : UlaStep s t) : UlaOut s (.next t) :=
  ⟨fun u hu => by cases hu; exact h, fun _ => ⟨t, rfl⟩⟩

theorem UlaOut.andThen {s : State} {o : Out} {f : State → Out} (h : UlaOut s o) (k : ∀ t, UlaStep s t → UlaOut t (f t)) :
    UlaOut s (andThen o f) where
  step := fun u hu => by
    obtain ⟨t, ht, hf⟩ := andThen_eq_next hu
    have hs := h.step t ht
    exact hs.trans ((k t hs).step u hf)
  total := fun hc => by
    obtain ⟨t, ht⟩ := h.total hc
    have hs := h.step t ht
    obtain ⟨u, hu⟩ := (k t hs).total (hs.cfg ▸ hc)
    exact ⟨u, by rw [ht]; exact hu⟩

/-- A change of the raster and sync record, and of the record `EV`. -/
theorem UlaStep.ula {s : State} (h : Inv s) (u : Ula) (e : SyncEvent) : UlaStep s { s with ula := u, ev := e } where
  inv := { h with config := { h.config with }, storage := { h.storage with } }
  cfg := rfl
  cpu := rfl
  pt := rfl
  phys := rfl
  ts := rfl
  frames := rfl
  cycles := rfl
  agenda := rfl
  soundLog := rfl
  soundFlushed := rfl
  draw := id

/-- The same, from a state an `UlaStep` led to. -/
theorem UlaStep.andUla {s t : State} (h : UlaStep s t) (u : Ula) (e : SyncEvent) : UlaStep s { t with ula := u, ev := e } :=
  h.trans (UlaStep.ula h.inv u e)

/-! ### Pixels -/

theorem wf_setPixel {m : Memory} (stride x y : Nat) (ink : Bool) (h : m.wf = true) : (m.setPixel stride x y ink).wf = true :=
  Memory.wf_write _ _ h

theorem wf_fillRun (c : Config) {m : Memory} (n a : Nat) (h : m.wf = true) : (fillRun c m n a).wf = true := by
  induction n generalizing m a with
  | zero => exact h
  | succ n ih => exact ih _ (wf_setPixel _ _ _ _ h)

theorem wf_fillRegion (c : Config) {m : Memory} (a b : Nat) (h : m.wf = true) : (fillRegion c m a b).wf = true := by
  unfold fillRegion fillRange
  split
  · exact wf_fillRun _ _ _ h
  · exact wf_fillRun _ _ _ (wf_fillRun _ _ _ h)

theorem foldl_keeps {α β : Type} (P : β → Prop) (f : β → α → β) (hf : ∀ b a, P b → P (f b a)) (l : List α) (b : β) (h : P b) :
    P (l.foldl f b) := by
  induction l generalizing b with
  | nil => exact h
  | cons a l ih => exact ih _ (hf b a h)

theorem wf_paintByte (c : Config) (bx by0 : Int) (pix : Byte) {m : Memory} (h : m.wf = true) :
    (paintByte c bx by0 pix m).wf = true := by
  refine foldl_keeps (fun m : Memory => m.wf = true) _ (fun m k hm => ?_) _ _ h
  unfold paintPixel
  split
  · exact wf_setPixel _ _ _ _ hm
  · exact hm

theorem wf_paintAttr (c : Config) (bx by0 : Int) (attr : Byte) {m : Memory} (h : m.wf = true) :
    (paintAttr c bx by0 attr m).wf = true := by
  refine foldl_keeps (fun m : Memory => m.wf = true) _ (fun m k hm => ?_) _ _ h
  unfold paintAttrAt
  split
  · exact Memory.wf_write _ _ hm
  · exact hm

theorem mem_modify {l : List Memory} {k : Nat} {f : Memory → Memory} {m : Memory} (h : m ∈ l.modify k f)
    (hl : ∀ m ∈ l, m.wf = true) (hf : ∀ m, m.wf = true → (f m).wf = true) : m.wf = true := by
  obtain ⟨i, hi, rfl⟩ := List.mem_iff_getElem.1 h
  rw [List.getElem_modify]
  split
  · exact hf _ (hl _ (List.getElem_mem _))
  · exact hl _ (List.getElem_mem _)

/-- Storage of pixels and chroma changed buffer by buffer. -/
theorem UlaStep.paint {s : State} (h : Inv s) (k : Nat) (f g : Memory → Memory) (n : Nat)
    (hf : ∀ m, m.wf = true → (f m).wf = true) (hg : ∀ m, m.wf = true → (g m).wf = true) :
    UlaStep s { s with pix := s.pix.modify k f, chroma := s.chroma.modify k g, freeCount := n } where
  inv :=
    { config := { h.config with }
      storage :=
        { phys := h.storage.phys
          pix := fun m hm => mem_modify hm h.storage.pix hf
          chroma := fun m hm => mem_modify hm h.storage.chroma hg
          pixLen := by simpa using h.storage.pixLen
          chromaLen := by simpa using h.storage.chromaLen }
      pool := h.pool
      draw := h.draw
      counter := h.counter }
  cfg := rfl
  cpu := rfl
  pt := rfl
  phys := rfl
  ts := rfl
  frames := rfl
  cycles := rfl
  agenda := rfl
  soundLog := rfl
  soundFlushed := rfl
  draw := id

theorem modify_id' (l : List Memory) (k : Nat) : l.modify k id = l := List.modify_id _ _

theorem floodFill_step {s : State} (h : Inv s) (x0 y0 x1 y1 : Int) : UlaStep s (s.floodFill x0 y0 x1 y1) := by
  unfold State.floodFill
  split
  · exact UlaStep.ula h s.ula s.ev
  · next k _ =>
    have := UlaStep.paint h k
      (fun m => fillRegion s.cfg m (linearIndex s.cfg (x0 + s.cfg.pixOffsetX - s.cfg.winX0) (y0 - s.cfg.winY0))
        (linearIndex s.cfg (x1 + s.cfg.pixOffsetX - s.cfg.winX0) (y1 - s.cfg.winY0))) id s.freeCount
      (fun m hm => wf_fillRegion _ _ _ hm) (fun m hm => hm)
    rw [modify_id'] at this
    exact this

/-- A flood fill reads the configuration, the draw buffer and the pixels only, and writes the pixels only. -/
theorem floodFill_congr {s t : State} (hc : t.cfg = s.cfg) (hd : t.draw = s.draw) (hp : t.pix = s.pix) (x0 y0 x1 y1 : Int) :
    t.floodFill x0 y0 x1 y1 = { t with pix := (s.floodFill x0 y0 x1 y1).pix } := by
  obtain ⟨⟩ := t
  dsimp only at hc hd hp
  subst hc hd hp
  unfold State.floodFill
  cases s.draw <;> rfl

theorem videoByte_step {s : State} (h : Inv s) (b : Byte) (a : Word) : UlaStep s (s.videoByte b a) := by
  unfold State.videoByte
  split
  · exact UlaStep.ula h s.ula s.ev
  · next k _ =>
    have h1 : UlaStep s { s with pix := s.pix.modify k (paintByte s.cfg s.videoColumn s.videoRow (s.videoPixels b)) } := by
      have := UlaStep.paint h k (paintByte s.cfg s.videoColumn s.videoRow (s.videoPixels b)) id s.freeCount
        (fun m hm => wf_paintByte _ _ _ _ hm) (fun m hm => hm)
      rw [modify_id'] at this
      exact this
    have h2 : ∀ t, UlaStep s t → UlaStep s (if s.cfg.udg = true then t.drawn else t) := by
      intro t ht
      split
      · have := UlaStep.paint ht.inv 0 id id (t.freeCount + 1) (fun m hm => hm) (fun m hm => hm)
        rw [modify_id', modify_id'] at this
        exact ht.trans this
      · exact ht
    have h3 : ∀ t, UlaStep s t → UlaStep s (t.videoAttr k b a) := by
      intro t ht
      unfold State.videoAttr
      split
      · have := UlaStep.paint ht.inv k id
          (paintAttr t.cfg t.videoColumn t.videoRow (Config.attrFn t.freeCount t.cpu.i b t.ula.row a)) (t.freeCount + 1)
          (fun m hm => hm) (fun m hm => wf_paintAttr _ _ _ _ hm)
        rw [modify_id'] at this
        exact ht.trans this
      · exact ht
    exact h3 _ (h2 _ h1)

/-! ### The hand-off -/

theorem clearDraw_step {s : State} (h : Inv s) : UlaStep s s.clearDraw := by
  unfold State.clearDraw
  split
  · exact UlaStep.ula h s.ula s.ev
  · next k _ =>
    have hw : ∀ m : Memory, m.wf = true → Memory.wf ([] : Memory) = true := fun _ _ => rfl
    split
    · exact UlaStep.paint h k (fun _ => []) (fun _ => []) s.freeCount hw hw
    · have := UlaStep.paint h k (fun _ => []) id s.freeCount hw (fun m hm => hm)
      rw [modify_id'] at this
      exact this

theorem freshDraw_ok {s : State} (h : InvOut [] s) : UlaOut s s.freshDraw ∧ ∀ t, s.freshDraw = .next t → t.draw.isSome := by
  obtain ⟨hs, ht⟩ := acquireDraw_ok h
  have key : ∀ t, s.freshDraw = .next t → UlaStep s t ∧ t.draw.isSome := by
    intro u hu
    obtain ⟨t, ht, hf⟩ := andThen_eq_next hu
    obtain ⟨hi, hd, h1, -, h3, h4, h5, h6, -, h8, h9, h10, h11, h12, -, -⟩ := hs t ht
    cases hf
    have hc := clearDraw_step hi
    have : UlaStep s t := ⟨hi, h1, h3, h5, h4, h9, h10, h8, h6, h11, h12, fun _ => hd⟩
    exact ⟨this.trans hc, hc.draw hd⟩
  refine ⟨⟨fun t ht => (key t ht).1, fun hc => ?_⟩, fun t ht => (key t ht).2⟩
  obtain ⟨t, he⟩ := ht hc
  exact ⟨t.clearDraw, by rw [State.freshDraw, he]; rfl⟩

theorem fieldHandOff_ok {s : State} (h : Inv s) : UlaOut s s.fieldHandOff := by
  unfold State.fieldHandOff
  split
  · next hd =>
    refine (freshDraw_ok ?_).1
    have := h.toOut
    rwa [hd] at this
  · next k hd =>
    have h0 : InvOut [k] s := by have := h.toOut; rwa [hd] at this
    obtain ⟨t, ht, hi, hr⟩ := submitDraw_ok h0
    rw [ht, andThen_next]
    obtain ⟨ho, hx⟩ := freshDraw_ok hi
    refine ⟨fun u hu => ?_, fun hc => ho.total (hr.cfg ▸ hc)⟩
    have k := ho.step u hu
    exact ⟨k.inv, k.cfg.trans hr.cfg, k.cpu.trans hr.cpu, k.pt.trans hr.pt, k.phys.trans hr.phys, k.ts.trans hr.ts,
      k.frames.trans hr.frames, k.cycles.trans hr.cycles, k.agenda.trans hr.agenda, k.soundLog.trans hr.soundLog,
      k.soundFlushed.trans hr.soundFlushed, fun _ => hx u hu⟩

/-- A state an `UlaStep` leads to, followed by an operation that keeps the invariant. -/
theorem UlaOut.after {s t : State} {o : Out} (h : UlaStep s t) (k : UlaOut t o) : UlaOut s o :=
  ⟨fun u hu => h.trans (k.step u hu), fun hc => k.total (h.cfg ▸ hc)⟩

theorem fieldBoundary_ok {s : State} (h : Inv s) : UlaOut s s.fieldBoundary :=
  UlaOut.after (UlaStep.ula h _ _) (fieldHandOff_ok (UlaStep.ula h _ _).inv)

theorem syncLoss_ok {s : State} (h : Inv s) : UlaOut s s.syncLoss := by
  obtain ⟨t, ht, hi, hr⟩ := blankDisplay_ok s.cfg.syncLossBlack h.toOut
  unfold State.syncLoss
  rw [ht, andThen_next]
  rw [← hr.draw] at hi
  refine UlaOut.next (UlaStep.andUla ⟨hi.toInv, hr.cfg, hr.cpu, hr.pt, hr.phys, hr.ts, hr.frames, hr.cycles, hr.agenda, hr.soundLog,
    hr.soundFlushed, fun d => by rw [hr.draw]; exact d⟩ _ _)

theorem clampLine_step {s : State} (h : Inv s) : UlaStep s s.clampLine := by
  unfold State.clampLine
  split
  · exact UlaStep.ula h _ _
  · exact UlaStep.ula h s.ula s.ev

theorem clamp_ok {s : State} (h : Inv s) : UlaOut s s.clamp := by
  unfold State.clamp
  split
  · exact UlaOut.after (clampLine_step h) (syncLoss_ok (clampLine_step h).inv)
  · exact UlaOut.next (clampLine_step h)

/-! ### The ticks -/

theorem saturatingSucc_eq (n : BitVec 32) : saturatingSucc n = BitVec.ofNat 32 (min (n.toNat + 1) (2 ^ 32 - 1)) := by
  unfold saturatingSucc
  apply BitVec.eq_of_toNat_eq
  split
  · next h => rw [h]; rfl
  · next h =>
    have hn : n.toNat ≠ 0xFFFFFFFF := fun e => h (BitVec.eq_of_toNat_eq e)
    have := n.isLt
    rw [BitVec.toNat_add, BitVec.toNat_ofNat, show (1 : BitVec 32).toNat = 1 from rfl]
    omega

@[simp] theorem latches_setLatches (u : Ula) (v : Latches) : (u.setLatches v).latches = v := rfl

@[simp] theorem setLatches_latches (u : Ula) : u.setLatches u.latches = u := rfl

@[simp] theorem latchStep_standard {c : Config} (h : c.latch = .standard) (v : Latches) : latchStep c v = standardLatches c v := by
  rw [latchStep, h]

@[simp] theorem latchStep_other {c : Config} (h : c.latch = .other) (v : Latches) : latchStep c v = Config.latchFn v := by
  rw [latchStep, h]

theorem tickA_step {s : State} (h : Inv s) : UlaStep s s.tickA := by
  have h1 : UlaStep s (s.setUla (s.ula.countA s.cfg)) := UlaStep.ula h _ s.ev
  unfold State.tickA
  dsimp only
  split
  · split <;> split <;> exact ((h1.andUla _ _).andUla _ _)
  · split
    · exact h1.andUla _ s.ev
    · exact h1

theorem fillPulse_step {s : State} (h : Inv s) : UlaStep s s.fillPulse := floodFill_step h _ _ _ _

theorem classifyB_ok {s : State} (h : Inv s) : UlaOut s s.classifyB := by
  unfold State.classifyB
  split
  · have h1 := (fillPulse_step h).andUla { s.fillPulse.ula with rowHold := true } s.fillPulse.ev
    exact UlaOut.after h1 (fieldBoundary_ok h1.inv)
  · exact UlaOut.next ((UlaStep.ula h _ _).andUla _ _)

theorem tickB_ok {s : State} (h : Inv s) : UlaOut s s.tickB := by
  have h1 : UlaStep s (s.setUla (s.ula.countB s.cfg)) := UlaStep.ula h _ s.ev
  unfold State.tickB
  dsimp only
  split
  · exact UlaOut.after h1 (classifyB_ok h1.inv)
  · exact UlaOut.next h1

theorem tick_ok {s : State} (h : Inv s) : UlaOut s s.tick := by
  unfold State.tick
  split
  · exact UlaOut.after (tickA_step h) (clamp_ok (tickA_step h).inv)
  · exact UlaOut.andThen (tickB_ok h) fun t ht => clamp_ok ht.inv

theorem ticks_ok (n : Nat) {s : State} (h : Inv s) : UlaOut s (ticks n s) := by
  induction n generalizing s with
  | zero => exact UlaOut.next (UlaStep.ula h s.ula s.ev)
  | succ n ih => exact UlaOut.andThen (tick_ok h) fun t ht => ih ht.inv

theorem syncAdvance_ok (n : Nat) {s : State} (h : Inv s) : UlaOut s (s.syncAdvance n) :=
  UlaOut.andThen (ticks_ok n h) fun t ht => UlaOut.next (UlaStep.ula ht.inv _ t.ev)

/-! ### The port events -/

theorem vsyncSet_step {s : State} (h : Inv s) : UlaStep s s.vsyncSet := by
  unfold State.vsyncSet
  split
  · exact UlaStep.ula h s.ula s.ev
  · exact UlaStep.ula h _ s.ev

theorem vsyncClear_ok {s : State} (h : Inv s) : UlaOut s s.vsyncClear := by
  unfold State.vsyncClear
  split
  · have h1 : UlaStep s (s.setUla { s.ula with vsyncState := false }) := UlaStep.ula h _ s.ev
    have h2 := h1.trans (fillPulse_step h1.inv)
    dsimp only
    split
    · exact UlaOut.after h2 (fieldBoundary_ok h2.inv)
    · exact UlaOut.next h2
  · exact UlaOut.next (UlaStep.ula h s.ula s.ev)

theorem syncAct_ok {s : State} (act : SyncAct) (h : Inv s) : UlaOut s (s.syncAct act) := by
  unfold State.syncAct
  split
  · exact UlaOut.next (vsyncSet_step h)
  · exact vsyncClear_ok h
  all_goals exact UlaOut.next (UlaStep.ula h _ s.ev)

theorem portEvents_ok {s : State} (access : PortAccess) (port : Word) (rules : List PortRule) (h : Inv s) :
    UlaOut s (portEvents access port rules s) := by
  induction rules generalizing s with
  | nil => exact UlaOut.next (UlaStep.ula h s.ula s.ev)
  | cons r rs ih =>
    refine UlaOut.andThen ?_ fun t ht => ih ht.inv
    split
    · exact syncAct_ok _ h
    · exact UlaOut.next (UlaStep.ula h s.ula s.ev)

/-! ### The default port decoding -/

theorem and_one_eq (port : Word) : (port &&& 1 == 0) = !port.getLsbD 0 := by
  rw [show (1 : Word) = BitVec.twoPow 16 0 from rfl, BitVec.and_twoPow]
  cases port.getLsbD 0 <;> rfl

theorem and_two_eq (port : Word) : (port &&& 2 == 0) = !port.getLsbD 1 := by
  rw [show (2 : Word) = BitVec.twoPow 16 1 from rfl, BitVec.and_twoPow]
  cases port.getLsbD 1 <;> rfl

theorem and_zero_eq (port : Word) : (port &&& 0 == 0) = true := by
  simp

/-- Whether a row that is written out matches. -/
theorem portMatches_eq (s : State) (access kind : PortAccess) (port mask value : Word) (off : Bool) (act : SyncAct) :
    s.portMatches access port ⟨kind, mask, value, off, act⟩ =
      (kind == access && port &&& mask == value && !(off && s.ula.nmiGenOn)) := rfl

@[simp] theorem vsyncSet_cfg (s : State) : s.vsyncSet.cfg = s.cfg := by
  unfold State.vsyncSet
  split <;> rfl

/-- Under the default table a read is R505. -/
theorem portReadEvents_default {s : State} (port : Word) (h : s.cfg.portDecode = Config.defaultPorts) :
    s.portReadEvents port =
      if port.getLsbD 0 then .next s
      else
        match s.cfg.machine with
        | .nmiVariant => .next (if s.ula.nmiGenOn then s else s.vsyncSet)
        | .ffVariant => .next (s.setL1 true) := by
  unfold State.portReadEvents
  rw [h]
  simp only [Config.defaultPorts, portEvents, portMatches_eq, and_one_eq, and_two_eq, and_zero_eq]
  cases hp : port.getLsbD 0 <;> cases hm : s.cfg.machine <;> cases hg : s.ula.nmiGenOn <;>
    simp [State.syncAct, hm]

/-- The rows of the default table that a write meets in variant A after the clear. -/
theorem nmiEvents_default {t : State} (port : Word) (hm : t.cfg.machine = .nmiVariant) :
    portEvents .write port [⟨.write, 2, 0, false, .nmiOff⟩, ⟨.write, 1, 0, false, .nmiOn⟩, ⟨.write, 0, 0, false, .syncOff⟩] t =
      let u := if port.getLsbD 1 then t else t.setNmiGen false
      .next (if port.getLsbD 0 then u else u.setNmiGen true) := by
  simp only [portEvents, portMatches_eq, and_one_eq, and_two_eq, and_zero_eq]
  cases port.getLsbD 0 <;> cases port.getLsbD 1 <;> simp [State.syncAct, hm, State.setNmiGen]

/-- Under the default table a write is R506. -/
theorem portWriteEvents_default {s : State} (port : Word) (hs : Inv s) (h : s.cfg.portDecode = Config.defaultPorts) :
    s.portWriteEvents port =
      match s.cfg.machine with
      | .nmiVariant =>
        andThen s.vsyncClear fun t =>
          let u := if port.getLsbD 1 then t else t.setNmiGen false
          .next (if port.getLsbD 0 then u else u.setNmiGen true)
      | .ffVariant => .next (s.setL1 false) := by
  unfold State.portWriteEvents
  rw [h]
  cases hm : s.cfg.machine with
  | nmiVariant =>
    have hr : portEvents .write port Config.defaultPorts s = andThen s.vsyncClear (portEvents .write port
        [⟨.write, 2, 0, false, .nmiOff⟩, ⟨.write, 1, 0, false, .nmiOn⟩, ⟨.write, 0, 0, false, .syncOff⟩]) := by
      simp [Config.defaultPorts, portEvents.eq_2, portMatches_eq, State.syncAct, hm]
    rw [hr]
    exact andThen_congr fun t ht => nmiEvents_default port (((vsyncClear_ok hs).step t ht).cfg ▸ hm)
  | ffVariant =>
    simp only [Config.defaultPorts, portEvents, portMatches_eq, and_one_eq, and_two_eq, and_zero_eq]
    cases port.getLsbD 0 <;> cases port.getLsbD 1 <;> simp [State.syncAct, hm]

end Sys2Proof.Safety
end

