-- ==== Sys2Proof/Laws/Run.lean ====
section
/-! SUPPORT. Every instruction, the prefix rows and the ports among them, and every interrupt entry: it keeps the invariant and what
no writable page maps, and it stops only in an endless chain of prefixes. -/

namespace Sys2Proof.Safety

open Machine

/-- `t` comes from `s` by an instruction or an interrupt entry. -/
structure CpuStep (s t : State) : Prop where
  inv : Inv t
  cfg : t.cfg = s.cfg
  pt : t.pt = s.pt
  ts : t.ts = s.ts
  agenda : t.agenda = s.agenda
  draw : s.draw.isSome → t.draw.isSome
  rom : ∀ p, (∀ a, (s.entry a).writable = true → s.physAddr a ≠ p) → t.phys.read p = s.phys.read p

theorem CpuStep.trans {s t u : State} (h : CpuStep s t) (k : CpuStep t u) : CpuStep s u where
  inv := k.inv
  cfg := k.cfg.trans h.cfg
  pt := k.pt.trans h.pt
  ts := k.ts.trans h.ts
  agenda := k.agenda.trans h.agenda
  draw := fun d => k.draw (h.draw d)
  rom := by
    intro p hp
    rw [← h.rom p hp]
    refine k.rom p fun a ha => ?_
    have he : t.entry a = s.entry a := by simp [State.entry, h.pt]
    rw [he] at ha
    rw [State.physAddr, he]
    exact hp a ha

theorem CpuStep.ofSame {s t : State} (h : Inv s) (k : SameBlock s t) : CpuStep s t :=
  ⟨h.sameBlock k, k.cfg, k.pt, k.ts, k.agenda, fun d => by rw [k.draw]; exact d, k.rom⟩

theorem CpuStep.ofUla {s t : State} (k : UlaStep s t) : CpuStep s t :=
  ⟨k.inv, k.cfg, k.pt, k.ts, k.agenda, k.draw, fun p _ => by rw [k.phys]⟩

/-- Whatever next state the outcome is, it is a `CpuStep`; and with three buffers or more the outcome is a next state or the endless
chain. -/
structure CpuOut (s : State) (o : Out) : Prop where
  step : ∀ t, o = .next t → CpuStep s t
  stops : 3 ≤ s.cfg.poolCap → (∃ t, o = .next t) ∨ o = .fault .endlessPrefixChain

theorem CpuOut.next {s t : State} (h : CpuStep s t) : CpuOut s (.next t) :=
  ⟨fun u hu => by cases hu; exact h, fun _ => .inl ⟨t, rfl⟩⟩

theorem CpuOut.endless (s : State) : CpuOut s (.fault .endlessPrefixChain) :=
  ⟨(fun _ hu => by cases hu), fun _ => Or.inr rfl⟩

theorem CpuOut.ofQuiet {s : State} {o : Out} (h : Inv s) (k : Quiet s o) : CpuOut s o := by
  obtain ⟨t, rfl, k⟩ := k
  exact CpuOut.next (CpuStep.ofSame h k)

theorem CpuOut.ofUla {s : State} {o : Out} (k : UlaOut s o) : CpuOut s o :=
  ⟨fun t ht => CpuStep.ofUla (k.step t ht), fun hc => .inl (k.total hc)⟩

theorem CpuOut.andThen {s : State} {o : Out} {f : State → Out} (h : CpuOut s o) (k : ∀ t, CpuStep s t → CpuOut t (f t)) :
    CpuOut s (andThen o f) where
  step := fun u hu => by
    obtain ⟨t, ht, hf⟩ := andThen_eq_next hu
    exact (h.step t ht).trans ((k t (h.step t ht)).step u hf)
  stops := fun hc => by
    rcases h.stops hc with ⟨t, ht⟩ | ht
    · have hs := h.step t ht
      rcases (k t hs).stops (hs.cfg ▸ hc) with ⟨u, hu⟩ | hu
      · exact .inl ⟨u, by rw [ht]; exact hu⟩
      · exact .inr (by rw [ht]; exact hu)
    · exact .inr (by rw [ht]; rfl)

theorem CpuOut.after {s t : State} {o : Out} (h : CpuStep s t) (k : CpuOut t o) : CpuOut s o :=
  ⟨fun u hu => h.trans (k.step u hu), fun hc => k.stops (h.cfg ▸ hc)⟩

/-- From a state a `CpuStep` led to, `SameBlock` operations lead on. -/
theorem CpuStep.andSame {s t u : State} (h : CpuStep s t) (k : SameBlock t u) : CpuStep s u := h.trans (CpuStep.ofSame h.inv k)

/-! ### The ports -/

theorem portRead_ok {s : State} (port : Word) {use : Byte → State → State} (hu : ∀ v t, SameBlock t (use v t)) (h : Inv s) :
    CpuOut s (s.portRead port use) :=
  CpuOut.andThen (CpuOut.ofUla (portEvents_ok .read port _ h)) fun t ht =>
    CpuOut.next ((CpuStep.ofSame ht.inv (SameBlock.refl t).drawn).andSame (hu _ _))

theorem portWrite_ok {s : State} (port : Word) (v : Byte) (h : Inv s) : CpuOut s (s.portWrite port v) := by
  refine CpuOut.andThen (CpuOut.ofUla (portEvents_ok .write port _ h)) fun t ht => CpuOut.next ?_
  have hid : CpuStep t t := CpuStep.ofSame ht.inv (SameBlock.refl t)
  unfold State.soundHook
  split
  · exact ⟨{ ht.inv with config := { ht.inv.config with }, storage := { ht.inv.storage with } }, rfl, rfl, rfl, rfl, id,
      fun _ _ => rfl⟩
  · exact hid

theorem output_ok {s : State} (n : Nat) (port : Word) (v : Byte) (h : Inv s) : CpuOut s (output n port v s) :=
  CpuOut.andThen (portWrite_ok port v h) fun t ht => CpuOut.next (CpuStep.ofSame ht.inv ((SameBlock.refl t).took n))

theorem inBlock_ok {s : State} (w : Word) (h : Inv s) : CpuOut s (s.inBlock w) :=
  portRead_ok _ (fun _ t => (((SameBlock.refl t).memWrite _ _).setCpu _).setCpu _ |>.drawn) h

theorem outBlock_ok {s : State} (w : Word) (h : Inv s) : CpuOut s (s.outBlock w) := by
  have h1 : CpuStep s (s.setReg .b (s.cpu.b - 1)) := CpuStep.ofSame h ((SameBlock.refl s).setReg _ _)
  refine CpuOut.after h1 (CpuOut.andThen (portWrite_ok _ _ h1.inv) fun t ht => CpuOut.next ?_)
  exact CpuStep.ofSame ht.inv ((((SameBlock.refl t).setHl _).setF _).drawn)

theorem finish_step {s t : State} (n : Nat) (h : CpuStep s t) : CpuOut s (finish n t) :=
  CpuOut.next (h.andSame ((SameBlock.refl t).took n))

theorem finishIoBlock_ok {s : State} (h : Inv s) : CpuOut s (finishIoBlock s) := by
  unfold finishIoBlock
  split
  · exact finish_step _ (CpuStep.ofSame h ((SameBlock.refl s).setPc _))
  · exact finish_step _ (CpuStep.ofSame h (SameBlock.refl s))

theorem input_ok {s : State} (n : Nat) (port : Word) {use : Byte → State → State} (hu : ∀ v t, SameBlock t (use v t)) (h : Inv s) :
    CpuOut s (input n port use s) :=
  CpuOut.andThen (portRead_ok port hu h) fun t ht => finish_step n (CpuStep.ofSame ht.inv (SameBlock.refl t))

theorem exec_port_ok (i : Instr) (s : State) (hp : i.isPort = true) (h : Inv s) : CpuOut s (exec i s) := by
  cases i <;> first | (exact absurd hp Bool.false_ne_true) | skip
  all_goals first
    | exact output_ok _ _ _ h
    | exact input_ok _ _ (fun v t => (SameBlock.refl t).setReg _ _) h
    | exact input_ok _ _ (fun v t => ((SameBlock.refl t).setReg _ _).setF _) h
    | exact input_ok _ _ (fun v t => (SameBlock.refl t).setF _) h
    | exact CpuOut.andThen (inBlock_ok _ h) fun t ht => finish_step _ (CpuStep.ofSame ht.inv (SameBlock.refl t))
    | exact CpuOut.andThen (inBlock_ok _ h) fun t ht => finishIoBlock_ok ht.inv
    | exact CpuOut.andThen (outBlock_ok _ h) fun t ht => finish_step _ (CpuStep.ofSame ht.inv (SameBlock.refl t))
    | exact CpuOut.andThen (outBlock_ok _ h) fun t ht => finishIoBlock_ok ht.inv

/-! ### The prefix rows -/

/-- A row that is no prefix means the same whatever a prefix leads to. -/
theorem rowMeaning_eq_exec (go : Instr → State → Out) (i : Instr) (s : State) (hx : i.isPrefixRow = false) :
    rowMeaning go i s = exec i s := by
  cases i <;> first | (cases hx; done) | rfl

theorem exec_plain_ok (i : Instr) (s : State) (hx : i.isPrefixRow = false) (h : Inv s) : CpuOut s (exec i s) := by
  cases hp : i.isPort with
  | true => exact exec_port_ok i s hp h
  | false => exact CpuOut.ofQuiet h (exec_quiet i s hp hx)

theorem afterBytes_ok (hd : ∀ bs : List Byte, 4 ≤ bs.length → ∃ r, decode bs = .ok r) {go : Instr → State → Out}
    (hg : ∀ i s, Inv s → CpuOut s (go i s)) (lead : List Byte) {s : State} (h : Inv s) : CpuOut s (afterBytes go lead s) := by
  obtain ⟨⟨i, len⟩, hr⟩ := hd (lead ++ s.bytesAtPc) (by simp [State.bytesAtPc])
  unfold afterBytes
  rw [hr]
  have h1 := CpuStep.ofSame h ((SameBlock.refl s).fetched (len - lead.length)
    (m1Fetches (lead ++ s.bytesAtPc) len - m1Fetches lead lead.length))
  exact CpuOut.after h1 (hg i _ h1.inv)

theorem withExtra_ok {s : State} {o : Out} (n : Nat) (h : CpuOut s o) : CpuOut s (withExtra n o) :=
  CpuOut.andThen h fun t ht => CpuOut.next (CpuStep.ofSame ht.inv ((SameBlock.refl t).took _))

theorem rowMeaning_ok (hd : ∀ bs : List Byte, 4 ≤ bs.length → ∃ r, decode bs = .ok r) {go : Instr → State → Out}
    (hg : ∀ i s, Inv s → CpuOut s (go i s)) (i : Instr) (s : State) (h : Inv s) : CpuOut s (rowMeaning go i s) := by
  have hp : ∀ p lead, CpuOut s (afterBytes go lead (s.setPfx p)) := fun p lead =>
    have h1 := CpuStep.ofSame h ((SameBlock.refl s).setPfx p)
    CpuOut.after h1 (afterBytes_ok hd hg lead h1.inv)
  have hi : ∀ x, CpuOut s (overIndex go x s) := by
    intro x
    unfold overIndex
    split
    · exact withExtra_ok 4 (hp _ _)
    · exact hp _ _
  cases hx : i.isPrefixRow with
  | false => rw [rowMeaning_eq_exec go i s hx]; exact exec_plain_ok i s hx h
  | true =>
    cases i <;> first | (cases hx; done) | skip
    · exact afterBytes_ok hd hg [0xCB] h
    · exact hi .ix
    · exact afterBytes_ok hd hg [0xED] h
    · exact hi .iy
    · exact hp _ _
    · exact withExtra_ok 4 (hp _ _)

theorem runAfterPrefix_ok (hd : ∀ bs : List Byte, 4 ≤ bs.length → ∃ r, decode bs = .ok r) (n : Nat) (i : Instr) (s : State)
    (h : Inv s) : CpuOut s (runAfterPrefix n i s) := by
  induction n generalizing i s with
  | zero => exact rowMeaning_ok hd (fun _ s _ => CpuOut.endless s) i s h
  | succ n ih => exact rowMeaning_ok hd ih i s h

/-! ### The endless chain (R148) -/

theorem memRead_incRTimes (s : State) (n : Nat) (a : Word) : (s.incRTimes n).memRead a = s.memRead a := by
  induction n generalizing s with
  | zero => rfl
  | succ n ih => exact ih s.incR

theorem memRead_fetched (s : State) (n m1 : Nat) (a : Word) : (s.fetched n m1).memRead a = s.memRead a :=
  memRead_incRTimes _ _ _

/-- Every address of the CPU holds an index prefix. -/
def OnlyIndexPrefixes (s : State) : Prop := ∀ a : Word, s.memRead a = 0xDD ∨ s.memRead a = 0xFD

/-- An index prefix before another one is a whole sequence to the decoder (R567). -/
theorem decode_two_index_prefixes (a b c d : Byte) (ha : a = 0xDD ∨ a = 0xFD) (hb : b = 0xDD ∨ b = 0xFD) :
    decode [a, b, c, d] = .ok (if a = 0xDD then .prefixDd else .prefixFd, 1) := by
  rcases ha with rfl | rfl <;> rcases hb with rfl | rfl <;> rfl

/-- One link of the chain: with index prefixes everywhere, a prefix leads to a prefix row. -/
theorem overIndex_chain {go : Instr → State → Out} (x : Idx) (s : State) (h : OnlyIndexPrefixes s)
    (hg : ∀ i t, i = .prefixDd ∨ i = .prefixFd → OnlyIndexPrefixes t → go i t = .fault .endlessPrefixChain) :
    overIndex go x s = .fault .endlessPrefixChain := by
  have hp : isIndexPrefix (s.memRead s.cpu.pc) = true := by rcases h s.cpu.pc with e | e <;> simp [isIndexPrefix, e]
  have hd : decode ([] ++ (s.setPfx (pfxOfFirst (s.memRead s.cpu.pc))).bytesAtPc) = _ :=
    decode_two_index_prefixes _ _ (s.memRead (s.cpu.pc + 2)) (s.memRead (s.cpu.pc + 3)) (h s.cpu.pc) (h (s.cpu.pc + 1))
  unfold overIndex afterBytes
  rw [if_pos hp, hd]
  dsimp only
  rw [hg _ _ (by split <;> simp) fun a => by rw [memRead_fetched]; exact h a]
  rfl

/-- A chain of index prefixes that fills the address space is never left, whatever the limit (R148). -/
theorem runAfterPrefix_endless (n : Nat) (i : Instr) (s : State) (hi : i = .prefixDd ∨ i = .prefixFd) (h : OnlyIndexPrefixes s) :
    runAfterPrefix n i s = .fault .endlessPrefixChain := by
  induction n generalizing i s with
  | zero => rcases hi with rfl | rfl <;> exact overIndex_chain _ s h fun _ _ _ _ => rfl
  | succ n ih => rcases hi with rfl | rfl <;> exact overIndex_chain _ s h ih

/-- A prefix row as `exec` runs it is the row's meaning at the chain's limit. -/
theorem exec_eq_rowMeaning (i : Instr) (s : State) : exec i s = rowMeaning (runAfterPrefix prefixLimit) i s := by
  cases hx : i.isPrefixRow with
  | false => exact (rowMeaning_eq_exec _ i s hx).symm
  | true => cases i <;> first | (cases hx; done) | rfl

theorem exec_ok (hd : ∀ bs : List Byte, 4 ≤ bs.length → ∃ r, decode bs = .ok r) (i : Instr) (s : State) (h : Inv s) :
    CpuOut s (exec i s) := by
  rw [exec_eq_rowMeaning]
  exact rowMeaning_ok hd (runAfterPrefix_ok hd prefixLimit) i s h

/-! ### The interrupt entries -/

theorem enterHandler_step {s : State} (target : State → Word) (n : Nat) (h : Inv s) : CpuStep s (s.enterHandler target n) :=
  CpuStep.ofSame h ((((SameBlock.refl s).push16 _).setPc _).took n)

theorem leaveHalt_step {s : State} (h : Inv s) : CpuStep s s.leaveHalt := by
  unfold State.leaveHalt
  split
  · exact CpuStep.ofSame h ((SameBlock.refl s).setCpu _)
  · exact CpuStep.ofSame h (SameBlock.refl s)

theorem ulaIntAck_step {s : State} (h : Inv s) : CpuStep s s.ulaIntAck := by
  unfold State.ulaIntAck
  split
  · exact CpuStep.ofSame h (SameBlock.refl s)
  · exact CpuStep.ofUla (UlaStep.ula h _ s.ev)

theorem nmiEntry_step {s : State} (h : Inv s) : CpuStep s s.nmiEntry := by
  have h1 : CpuStep s (s.setUla { s.ula with nmiPending := false }) := CpuStep.ofUla (UlaStep.ula h _ s.ev)
  have h2 := h1.trans (leaveHalt_step h1.inv)
  have key : ∀ t c f n, CpuStep s t → CpuStep s ((t.setCpu c).enterHandler f n) := fun t c f n ht =>
    have h3 := ht.andSame ((SameBlock.refl t).setCpu c)
    h3.trans (enterHandler_step f n h3.inv)
  unfold State.nmiEntry
  exact key _ _ _ _ h2

theorem intEntry_step {s : State} (h : Inv s) : CpuStep s s.intEntry := by
  have h1 := leaveHalt_step h
  have h2 := h1.andSame ((SameBlock.refl _).setCpu
    { s.leaveHalt.cpu with iff1 := false, iff2 := false, r := incRefresh s.leaveHalt.cpu.r })
  have h3 := h2.trans (ulaIntAck_step h2.inv)
  unfold State.intEntry
  dsimp only
  split <;> exact h3.trans (enterHandler_step _ _ h3.inv)

/-! ### The step of the CPU and the rest of the cycle -/

theorem stepCpu_ok (hd : ∀ bs : List Byte, 4 ≤ bs.length → ∃ r, decode bs = .ok r) {s : State} (h : Inv s) :
    CpuOut s s.stepCpu := by
  unfold State.stepCpu
  split
  · exact CpuOut.next (nmiEntry_step h)
  · split
    · exact CpuOut.next (intEntry_step h)
    · have h0 : CpuStep s s.beginInstr := CpuStep.ofSame h ((SameBlock.refl s).setCpu _)
      unfold State.stepInstr
      split
      · have h1 := h0.andSame ((SameBlock.refl s.beginInstr).fetched 1 1)
        have h2 := h1.trans (CpuStep.ofUla (videoByte_step h1.inv (s.beginInstr.memRead s.beginInstr.cpu.pc) s.beginInstr.cpu.pc))
        exact CpuOut.after h2 (exec_ok hd .nop _ h2.inv)
      · unfold State.runInstr
        obtain ⟨⟨i, len⟩, hr⟩ := hd s.beginInstr.bytesAtPc (by simp [State.bytesAtPc])
        rw [hr]
        have h1 := h0.andSame (((SameBlock.refl s.beginInstr).fetched len (m1Fetches s.beginInstr.bytesAtPc len)).setPfx
          (pfxOfFirst (s.beginInstr.memRead s.beginInstr.cpu.pc)))
        exact CpuOut.after h1 (CpuOut.andThen (exec_ok hd i _ h1.inv) fun t ht =>
          CpuOut.next (CpuStep.ofSame ht.inv ((SameBlock.refl t).setPfx _)))

theorem fieldTicks_eq (s : State) (n : Nat) :
    s.fieldTicks n = { s with soundLog := (s.fieldTicks n).soundLog, soundFlushed := (s.fieldTicks n).soundFlushed } := by
  induction n generalizing s with
  | zero => rfl
  | succ n ih => rw [State.fieldTicks, ih]; rfl

theorem counterAdvance_inv {s : State} (n : Nat) (h : Inv s) : Inv (s.counterAdvance n) := by
  unfold State.counterAdvance
  dsimp only
  rw [fieldTicks_eq]
  exact { h with
    config := { h.config with }
    storage := { h.storage with }
    counter := Nat.mod_lt _ (Nat.lt_of_le_of_lt (Nat.zero_le _) h.counter) }

end Sys2Proof.Safety
end

