-- ==== Sys2Proof/Laws/Host.lean ====
section
/-! SUPPORT. The actions of HOST: each keeps the invariant, and what a change of the page-table inputs can do. -/

namespace Sys2Proof.Safety

open Machine

/-- Reading storage after bytes are written from `a` on. -/
theorem read_writeBytes (m : Memory) (vs : List Byte) (a p : Nat) :
    (m.writeBytes a vs).read p = if a ≤ p ∧ p < a + vs.length then vs.getD (p - a) 0 else m.read p := by
  induction vs generalizing m a with
  | nil =>
    rw [if_neg (by simp only [List.length_nil]; omega)]
    rfl
  | cons v vs ih =>
    rw [Memory.writeBytes, ih, Memory.read_write, List.length_cons]
    by_cases h1 : p = a
    · subst h1
      rw [if_neg (by omega), if_pos rfl, if_pos (by omega), Nat.sub_self]
      rfl
    · by_cases h2 : a + 1 ≤ p ∧ p < a + 1 + vs.length
      · rw [if_pos h2, if_pos (by omega), show p - a = (p - (a + 1)) + 1 by omega]
        rfl
      · rw [if_neg h2, if_neg h1, if_neg (by omega)]

/-- The ROM part of a storage is the image laid into it, as far as the image reaches; the rest is as it was. -/
theorem read_withRom (m : Memory) (bytes : Nat) (image : List Byte) (p : Nat) :
    (m.withRom bytes image).read p = if p < bytes ∧ p < image.length then image.getD p 0 else m.read p := by
  rw [Memory.withRom, read_writeBytes, List.length_take]
  by_cases h : p < bytes ∧ p < image.length
  · rw [if_pos (by omega), if_pos h, Nat.sub_zero, List.getD_eq_getElem?_getD, List.getD_eq_getElem?_getD, List.getElem?_take,
      if_pos h.1]
  · rw [if_neg (by omega), if_neg h]

theorem wf_withRom {m : Memory} (bytes : Nat) (image : List Byte) (h : m.wf = true) : (m.withRom bytes image).wf = true :=
  Memory.wf_writeBytes _ _ h

/-- A table with the ROM pages protected has the pages asked for; the attribute of a ROM page is dropped. -/
theorem protectRom_get (c : Config) (pt : PageTable) (p : Fin 64) :
    (Config.protectRom c pt)[p] = if pt[p].base < c.romBytes then ⟨pt[p].base, false⟩ else pt[p] := by
  simp [Config.protectRom]

theorem protectRom_protected (c : Config) (pt : PageTable) : Config.romProtected c (Config.protectRom c pt) = true := by
  have h : (Config.protectRom c pt).toList = pt.toList.map fun e => if e.base < c.romBytes then ⟨e.base, false⟩ else e := rfl
  rw [Config.romProtected, h, List.all_map, List.all_eq_true]
  intro e _
  simp only [Function.comp_apply]
  split
  · rfl
  · next hb => simp [hb]

theorem protectRom_inside {c : Config} {pt : PageTable} (hi : Config.pagesInside c pt = true) :
    Config.pagesInside c (Config.protectRom c pt) = true := by
  have h : (Config.protectRom c pt).toList = pt.toList.map fun e => if e.base < c.romBytes then ⟨e.base, false⟩ else e := rfl
  rw [Config.pagesInside, List.all_eq_true] at hi
  rw [Config.pagesInside, h, List.all_map, List.all_eq_true]
  intro e he
  have hbase : (if e.base < c.romBytes then (⟨e.base, false⟩ : PageEntry) else e).base = e.base := by split <;> rfl
  rw [Function.comp_apply, hbase]
  exact hi e he

/-- What a rebuild can do. -/
theorem rebuildPages_cases {s t : State} {asked : PageTable} (h : s.rebuildPages asked = .next t) :
    Config.pagesInside s.cfg asked = true ∧
      t = { s with
        cfg := { s.cfg with ptInit := Config.protectRom s.cfg asked }
        pt := Config.protectRom s.cfg asked } := by
  unfold State.rebuildPages at h
  split at h
  · next hi =>
    cases h
    exact ⟨hi, rfl⟩
  · cases h

/-- What a build can do: it is a rebuild to the map given or to the default map, which is given for these inputs. -/
theorem buildPages_cases {s t : State} {map : Option PageTable} (h : s.buildPages map = .next t) :
    (map = none → defaultMapGiven s.cfg = true) ∧ s.rebuildPages (map.getD (defaultMap s.cfg)) = .next t := by
  unfold State.buildPages at h
  split at h
  · exact ⟨(fun e => nomatch e), h⟩
  · split at h
    · next hg => exact ⟨fun _ => hg, h⟩
    · cases h

/-- What a change of the page-table inputs can do: the new inputs and, with a new ROM variant, its image; then a build. -/
theorem changeMemory_cases {s t : State} {inputs : MemoryInputs} {map : Option PageTable} (h : s.changeMemory inputs map = .next t) :
    (inputs.rom = none ∧ { s with cfg := changedInputs s.cfg inputs }.buildPages map = .next t) ∨
      ∃ bytes image, inputs.rom = some ⟨bytes, some image⟩ ∧
        { s with cfg := changedInputs s.cfg inputs, phys := s.phys.withRom bytes image }.buildPages map = .next t := by
  unfold State.changeMemory at h
  dsimp only at h
  split at h
  · next hr => exact .inl ⟨hr, h⟩
  · cases h
  · next bytes image hr => exact .inr ⟨bytes, image, hr, h⟩

/-- The invariant of a state whose page tables are the same protected table inside `PHYS`, from the other fields' parts. -/
theorem Inv.rebuilt {s t : State} {asked : PageTable} (hp : Config.parametersOk s.cfg = true) (hc : Config.poolCapOk s.cfg = true)
    (hs : StorageOk s) (hq : PoolOk s.cfg.poolCap s.pool) (hd : s.pool.out = s.draw.toList) (ht : s.ts < s.cfg.fieldModulus)
    (h : s.rebuildPages asked = .next t) : Inv t := by
  obtain ⟨hi, rfl⟩ := rebuildPages_cases h
  exact
    { config := ⟨hp, hc, protectRom_inside hi, protectRom_inside hi, protectRom_protected _ _, protectRom_protected _ _⟩
      storage := { hs with }
      pool := hq
      draw := hd
      counter := ht }

theorem rebuildPages_inv {s t : State} {asked : PageTable} (hi : Inv s) (h : s.rebuildPages asked = .next t) : Inv t :=
  Inv.rebuilt hi.config.parameters hi.config.capacity hi.storage hi.pool hi.draw hi.counter h

theorem changeMemory_inv {s t : State} {inputs : MemoryInputs} {map : Option PageTable} (hi : Inv s)
    (h : s.changeMemory inputs map = .next t) : Inv t := by
  rcases changeMemory_cases h with ⟨-, hb⟩ | ⟨bytes, image, -, hb⟩
  · exact Inv.rebuilt (s := { s with cfg := changedInputs s.cfg inputs }) hi.config.parameters hi.config.capacity
      { hi.storage with } hi.pool hi.draw hi.counter (buildPages_cases hb).2
  · exact Inv.rebuilt (s := { s with cfg := changedInputs s.cfg inputs, phys := s.phys.withRom bytes image })
      hi.config.parameters hi.config.capacity { hi.storage with phys := wf_withRom _ _ hi.storage.phys } hi.pool hi.draw
      hi.counter (buildPages_cases hb).2

theorem machineReset_inv {s : State} (hi : Inv s) : Inv s.machineReset :=
  { config := { hi.config with inside := hi.config.insideInit, rom := hi.config.romInit }
    storage := { hi.storage with }
    pool := hi.pool
    draw := hi.draw
    counter := Nat.lt_of_le_of_lt (Nat.zero_le _) hi.counter }

theorem setToggles_inv {s : State} (m1not udg colour : Bool) (hi : Inv s) : Inv (s.setToggles m1not udg colour) :=
  { config := { hi.config with }
    storage := { hi.storage with }
    pool := hi.pool
    draw := hi.draw
    counter := hi.counter }

theorem load_inv {s : State} (bytes : List Byte) (hi : Inv s) : Inv (s.load bytes) := by
  unfold State.load
  split
  · exact
      { config := { hi.config with }
        storage := { hi.storage with }
        pool := { hi.pool with }
        draw := hi.draw
        counter := Nat.mod_lt _ (Nat.lt_of_le_of_lt (Nat.zero_le _) hi.counter) }
  · exact { hi with config := { hi.config with }, storage := { hi.storage with } }

/-- Whatever HOST does between two cycles, a well-formed state stays well formed. -/
theorem hostOp_inv {s t : State} {op : HostOp} (hi : Inv s) (h : s.hostOp op = .next t) : Inv t := by
  have locked : ∀ after, Inv after → s.hostLocked after = .next t → Inv t := by
    intro after ha hl
    unfold State.hostLocked at hl
    split at hl <;> cases hl
    exact ha
  cases op with
  | machineReset => cases h; exact machineReset_inv hi
  | rebuildPages requested => exact rebuildPages_inv hi h
  | changeMemory inputs map => exact changeMemory_inv hi h
  | setToggles m1not udg colour => cases h; exact setToggles_inv _ _ _ hi
  | save sinkTakes => exact locked (s.save sinkTakes) { hi with config := { hi.config with }, storage := { hi.storage with } } h
  | load bytes => exact locked _ (load_inv bytes hi) h

end Sys2Proof.Safety
end

