-- ==== Sys2Proof/Tests/Slice0.lean ====
section
/-! SUPPORT. The model's own tests: ill-formed terms are refused, words of every row of the opcode table decode, single steps give
what spec/95_test_vectors.md says (each test names its vector there), and each obligation's hypotheses have a witness. -/

namespace Sys2Proof.Tests

open Machine Safety Claims

set_option Elab.async false

/-! ### Well-formedness: an ill-formed term for each check -/

/-- R130: `NEG` itself is no mirror of it. -/
theorem test_wf_neg_mirror : (Instr.negMirror 0).wf = false ∧ (Instr.negMirror 1).wf = true := by decide

/-- R130: `RETN` and `RETI` are no mirrors. -/
theorem test_wf_retn_mirror :
    (Instr.retnMirror 0).wf = false ∧ (Instr.retnMirror 1).wf = false ∧ (Instr.retnMirror 2).wf = true := by decide

/-- R565: a block opcode and the rows 0x40 to 0x7F are no undefined ones; 0x3F, 0x80 and 0xA4 are. -/
theorem test_wf_undefined_ed :
    (Instr.nopEdUndefined 0xA0).wf = false ∧ (Instr.nopEdUndefined 0x40).wf = false ∧ (Instr.nopEdUndefined 0x7F).wf = false ∧
      (Instr.nopEdUndefined 0x3F).wf = true ∧ (Instr.nopEdUndefined 0x80).wf = true ∧ (Instr.nopEdUndefined 0xA4).wf = true := by
  decide

/-- R551: a load between halves is the form with the half as the source. -/
theorem test_wf_half_source :
    (Instr.ldHalfR .ix .high .h).wf = false ∧ (Instr.ldHalfR .iy .low .l).wf = false ∧ (Instr.ldHalfR .ix .low .a).wf = true := by
  decide

/-- R566: a byte of Map 4 and an index prefix are no opcodes without effect of the prefix. -/
theorem test_wf_prefix_without_effect :
    (Instr.indexPrefixNoEffect .ix 0x21).wf = false ∧ (Instr.indexPrefixNoEffect .iy 0xDD).wf = false ∧
      (Instr.indexPrefixNoEffect .ix 0x00).wf = true ∧ (Instr.indexPrefixNoEffect .ix 0xED).wf = true := by
  decide

/-! ### Decoding: a word of every row, written out from the bit patterns of R110 to R124 and R400 to R568 -/

/-- Does each byte sequence decode to the instruction beside it, to its last byte? -/
def decodesAll (l : List (List Byte × Instr)) : Bool :=
  l.all fun p => match decode p.1 with
    | .ok (i, n) => i == p.2 && n == p.1.length
    | .error _ => false

/-- Words of the unprefixed table, written out from the bit patterns of R110 to R124 and R400 to R568. -/
theorem test_decode_main_1 :
    decodesAll
      [([0x00], .nop), ([0x01, 0x34, 0x12], .ldPairNn .bc 0x1234), ([0x02], .ldAtBcA), ([0x03], .incPair .bc),
       ([0x2C], .incR .l), ([0x15], .decR .d), ([0x3E, 0x60], .ldRN .a 0x60), ([0x07], .rlca), ([0x08], .exAfAf),
       ([0x29], .addHlPair .hl), ([0x0A], .ldAAtBc), ([0x0B], .decPair .bc), ([0x0F], .rrca), ([0x10, 0xEE], .djnz 0xEE),
       ([0x12], .ldAtDeA), ([0x17], .rla), ([0x18, 0xEB], .jr 0xEB), ([0x1A], .ldAAtDe), ([0x1F], .rra),
       ([0x20, 0xE8], .jrNz 0xE8), ([0x22, 0x34, 0x12], .ldAtNnHl 0x1234), ([0x27], .daa), ([0x28, 0xE5], .jrZ 0xE5),
       ([0x2A, 0x34, 0x12], .ldHlAtNn 0x1234), ([0x2F], .cpl)] = true := by
  decide +kernel

/-- Words of the unprefixed table, written out from the bit patterns of R110 to R124 and R400 to R568. -/
theorem test_decode_main_2 :
    decodesAll
      [([0x30, 0xE2], .jrNc 0xE2), ([0x32, 0x34, 0x12], .ldAtNnA 0x1234), ([0x34], .incAtHl), ([0x35], .decAtHl),
       ([0x36, 0x77], .ldAtHlN 0x77), ([0x37], .scf), ([0x38, 0xDC], .jrC 0xDC), ([0x3A, 0x34, 0x12], .ldAAtNn 0x1234),
       ([0x3F], .ccf), ([0x5F], .ldRR .e .a), ([0x46], .ldRAtHl .b), ([0x75], .ldAtHlR .l), ([0x76], .halt),
       ([0x87], .addAR .a), ([0x86], .addAAtHl), ([0xC6, 0x82], .addAN 0x82), ([0x8F], .adcAR .a), ([0x8E], .adcAAtHl),
       ([0xCE, 0x85], .adcAN 0x85), ([0x95], .subR .l), ([0x96], .subAtHl), ([0xD6, 0x88], .subN 0x88), ([0x9C], .sbcAR .h),
       ([0x9E], .sbcAAtHl), ([0xDE, 0x8B], .sbcAN 0x8B)] = true := by
  decide +kernel

/-- Words of the unprefixed table, written out from the bit patterns of R110 to R124 and R400 to R568. -/
theorem test_decode_main_3 :
    decodesAll
      [([0xA3], .andR .e), ([0xA6], .andAtHl), ([0xE6, 0x8E], .andN 0x8E), ([0xAA], .xorR .d), ([0xAE], .xorAtHl),
       ([0xEE, 0x91], .xorN 0x91), ([0xB1], .orR .c), ([0xB6], .orAtHl), ([0xF6, 0x94], .orN 0x94), ([0xB8], .cpR .b),
       ([0xBE], .cpAtHl), ([0xFE, 0x97], .cpN 0x97), ([0xF8], .retCc .m), ([0xC1], .popPair .bc),
       ([0xCA, 0x34, 0x12], .jpCcNn .z 0x1234), ([0xC3, 0x34, 0x12], .jpNn 0x1234), ([0xD3, 0x9C], .outNA 0x9C),
       ([0xE3], .exAtSpHl), ([0xF3], .di), ([0xD4, 0x34, 0x12], .callCcNn .nc 0x1234), ([0xF5], .pushPair .af),
       ([0xE7], .rst 4), ([0xC9], .ret), ([0xD9], .exx), ([0xE9], .jpHl)] = true := by
  decide +kernel

/-- Words of the unprefixed table, written out from the bit patterns of R110 to R124 and R400 to R568. -/
theorem test_decode_main_4 :
    decodesAll
      [([0xF9], .ldSpHl), ([0xCB], .prefixCb), ([0xDB, 0xA7], .inAN 0xA7), ([0xEB], .exDeHl), ([0xFB], .ei),
       ([0xCD, 0x34, 0x12], .callNn 0x1234), ([0xDD], .prefixDd), ([0xED], .prefixEd), ([0xFD], .prefixFd)] = true := by
  decide +kernel

/-- Words of the CB table, written out from the bit patterns of R110 to R124 and R400 to R568. -/
theorem test_decode_cb :
    decodesAll
      [([0xCB, 0x05], .rlcR .l), ([0xCB, 0x06], .rlcAtHl), ([0xCB, 0x0F], .rrcR .a), ([0xCB, 0x0E], .rrcAtHl),
       ([0xCB, 0x11], .rlR .c), ([0xCB, 0x16], .rlAtHl), ([0xCB, 0x1B], .rrR .e), ([0xCB, 0x1E], .rrAtHl),
       ([0xCB, 0x25], .slaR .l), ([0xCB, 0x26], .slaAtHl), ([0xCB, 0x2F], .sraR .a), ([0xCB, 0x2E], .sraAtHl),
       ([0xCB, 0x31], .sllR .c), ([0xCB, 0x36], .sllAtHl), ([0xCB, 0x3B], .srlR .e), ([0xCB, 0x3E], .srlAtHl),
       ([0xCB, 0x68], .bitR 5 .b), ([0xCB, 0x56], .bitAtHl 2), ([0xCB, 0xBA], .resR 7 .d), ([0xCB, 0xA6], .resAtHl 4),
       ([0xCB, 0xCC], .setR 1 .h), ([0xCB, 0xF6], .setAtHl 6)] = true := by
  decide +kernel

/-- Words of the ED table, written out from the bit patterns of R110 to R124 and R400 to R568. -/
theorem test_decode_ed_1 :
    decodesAll
      [([0xED, 0x58], .inRC .e), ([0xED, 0x70], .inFC), ([0xED, 0x69], .outCR .l), ([0xED, 0x71], .outC0),
       ([0xED, 0x72], .sbcHlPair .sp), ([0xED, 0x4A], .adcHlPair .bc), ([0xED, 0x73, 0x34, 0x12], .ldAtNnPair .sp 0x1234),
       ([0xED, 0x4B, 0x34, 0x12], .ldPairAtNn .bc 0x1234), ([0xED, 0x44], .neg), ([0xED, 0x4C], .negMirror 1),
       ([0xED, 0x45], .retn), ([0xED, 0x4D], .reti), ([0xED, 0x7D], .retnMirror 7), ([0xED, 0x46], .im0),
       ([0xED, 0x56], .im1), ([0xED, 0x5E], .im2), ([0xED, 0x4E], .im0Mirror4E), ([0xED, 0x66], .im0Mirror66),
       ([0xED, 0x6E], .im0Mirror6E), ([0xED, 0x76], .im1Mirror), ([0xED, 0x7E], .im2Mirror), ([0xED, 0x47], .ldIA),
       ([0xED, 0x4F], .ldRefreshA), ([0xED, 0x57], .ldAI), ([0xED, 0x5F], .ldARefresh)] = true := by
  decide +kernel

/-- Words of the ED table, written out from the bit patterns of R110 to R124 and R400 to R568. -/
theorem test_decode_ed_2 :
    decodesAll
      [([0xED, 0x67], .rrd), ([0xED, 0x6F], .rld), ([0xED, 0x77], .nopEd77), ([0xED, 0x7F], .nopEd7F), ([0xED, 0xA0], .ldi),
       ([0xED, 0xA1], .cpi), ([0xED, 0xA2], .ini), ([0xED, 0xA3], .outi), ([0xED, 0xA8], .ldd), ([0xED, 0xA9], .cpd),
       ([0xED, 0xAA], .ind), ([0xED, 0xAB], .outd), ([0xED, 0xB0], .ldir), ([0xED, 0xB1], .cpir), ([0xED, 0xB2], .inir),
       ([0xED, 0xB3], .otir), ([0xED, 0xB8], .lddr), ([0xED, 0xB9], .cpdr), ([0xED, 0xBA], .indr), ([0xED, 0xBB], .otdr),
       ([0xED, 0xC7], .nopEdUndefined 0xC7)] = true := by
  decide +kernel

/-- Words of the DD and FD tables, written out from the bit patterns of R110 to R124 and R400 to R568. -/
theorem test_decode_index_1 :
    decodesAll
      [([0xDD, 0x21, 0x34, 0x12], .ldIdxNn .ix 0x1234), ([0xDD, 0x19], .addIdxPair .ix .de),
       ([0xDD, 0x22, 0x34, 0x12], .ldAtNnIdx .ix 0x1234), ([0xDD, 0x23], .incIdx .ix), ([0xFD, 0x24], .incHalf .iy .high),
       ([0xDD, 0x2D], .decHalf .ix .low), ([0xFD, 0x2E, 0xF8], .ldHalfN .iy .low 0xF8),
       ([0xFD, 0x2A, 0x34, 0x12], .ldIdxAtNn .iy 0x1234), ([0xFD, 0x2B], .decIdx .iy),
       ([0xDD, 0x34, 0x68], .incAtIdx .ix 0x68), ([0xFD, 0x35, 0x6B], .decAtIdx .iy 0x6B),
       ([0xDD, 0x36, 0x6E, 0xFD], .ldAtIdxN .ix 0x6E 0xFD), ([0xDD, 0x6E, 0x71], .ldRAtIdx .ix .l 0x71),
       ([0xDD, 0x70, 0x74], .ldAtIdxR .ix .b 0x74), ([0xDD, 0x7D], .ldRHalf .ix .a .low),
       ([0xDD, 0x67], .ldHalfR .ix .high .a), ([0xFD, 0x84], .addAHalf .iy .high), ([0xDD, 0x86, 0x80], .addAAtIdx .ix 0x80),
       ([0xFD, 0x8C], .adcAHalf .iy .high), ([0xDD, 0x8E, 0x86], .adcAAtIdx .ix 0x86), ([0xFD, 0x94], .subHalf .iy .high),
       ([0xDD, 0x96, 0x8C], .subAtIdx .ix 0x8C), ([0xFD, 0x9C], .sbcAHalf .iy .high),
       ([0xDD, 0x9E, 0x92], .sbcAAtIdx .ix 0x92), ([0xFD, 0xA4], .andHalf .iy .high)] = true := by
  decide +kernel

/-- Words of the DD and FD tables, written out from the bit patterns of R110 to R124 and R400 to R568. -/
theorem test_decode_index_2 :
    decodesAll
      [([0xDD, 0xA6, 0x98], .andAtIdx .ix 0x98), ([0xFD, 0xAC], .xorHalf .iy .high), ([0xDD, 0xAE, 0x9E], .xorAtIdx .ix 0x9E),
       ([0xFD, 0xB4], .orHalf .iy .high), ([0xDD, 0xB6, 0xA4], .orAtIdx .ix 0xA4), ([0xFD, 0xBC], .cpHalf .iy .high),
       ([0xDD, 0xBE, 0xAA], .cpAtIdx .ix 0xAA), ([0xFD, 0xE1], .popIdx .iy), ([0xDD, 0xE3], .exAtSpIdx .ix),
       ([0xFD, 0xE5], .pushIdx .iy), ([0xDD, 0xE9], .jpIdx .ix), ([0xFD, 0xF9], .ldSpIdx .iy),
       ([0xDD, 0xCB], .prefixIdxCb .ix), ([0xFD, 0x78], .indexPrefixNoEffect .iy 0x78)] = true := by
  decide +kernel

/-- Words of the DD CB and FD CB tables, written out from the bit patterns of R110 to R124 and R400 to R568. -/
theorem test_decode_index_cb :
    decodesAll
      [([0xDD, 0xCB, 0xC2, 0x06], .rlcAtIdx .ix 0xC2), ([0xFD, 0xCB, 0xC5, 0x07], .rlcAtIdxR .iy 0xC5 .a),
       ([0xDD, 0xCB, 0xC8, 0x0E], .rrcAtIdx .ix 0xC8), ([0xFD, 0xCB, 0xCB, 0x09], .rrcAtIdxR .iy 0xCB .c),
       ([0xDD, 0xCB, 0xCE, 0x16], .rlAtIdx .ix 0xCE), ([0xFD, 0xCB, 0xD1, 0x13], .rlAtIdxR .iy 0xD1 .e),
       ([0xDD, 0xCB, 0xD4, 0x1E], .rrAtIdx .ix 0xD4), ([0xFD, 0xCB, 0xD7, 0x1D], .rrAtIdxR .iy 0xD7 .l),
       ([0xDD, 0xCB, 0xDA, 0x26], .slaAtIdx .ix 0xDA), ([0xFD, 0xCB, 0xDD, 0x27], .slaAtIdxR .iy 0xDD .a),
       ([0xDD, 0xCB, 0xE0, 0x2E], .sraAtIdx .ix 0xE0), ([0xFD, 0xCB, 0xE3, 0x29], .sraAtIdxR .iy 0xE3 .c),
       ([0xDD, 0xCB, 0xE6, 0x36], .sllAtIdx .ix 0xE6), ([0xFD, 0xCB, 0xE9, 0x33], .sllAtIdxR .iy 0xE9 .e),
       ([0xDD, 0xCB, 0xEC, 0x3E], .srlAtIdx .ix 0xEC), ([0xFD, 0xCB, 0xEF, 0x3D], .srlAtIdxR .iy 0xEF .l),
       ([0xFD, 0xCB, 0xF2, 0x66], .bitAtIdx .iy 4 0xF2), ([0xDD, 0xCB, 0xF5, 0x4A], .bitAtIdxMirror .ix 1 0xF5 .d),
       ([0xFD, 0xCB, 0xF8, 0xB6], .resAtIdx .iy 6 0xF8), ([0xDD, 0xCB, 0xFB, 0x9C], .resAtIdxR .ix 3 0xFB .h),
       ([0xFD, 0xCB, 0xFE, 0xC6], .setAtIdx .iy 0 0xFE), ([0xDD, 0xCB, 0x01, 0xEF], .setAtIdxR .ix 5 0x01 .a)] = true := by
  decide +kernel

/-- The decoder refuses bytes that hold no whole instruction, by name. -/
theorem test_decode_truncated :
    (decode []).toOption = none ∧ (decode [0x21, 0x34]).toOption = none ∧ (decode [0xDD, 0xCB, 0x05]).toOption = none := by
  decide +kernel

/-- A word of the opcode table, its bytes numbered from the first, is read and run as the instruction it stands for. -/
theorem test_table_word :
    decodeTableWord 24 0x123421 = some (.ldPairNn .hl 0x1234) ∧ decodeTableWord 16 0x11CB = some (.rlR .c) ∧
      decodeTableWord 8 0xC6 = some (.addAN 0) := by
  decide +kernel

/-! ### Single steps -/

/-- The register file the vectors start from: `PC = 0x4000`, `SP = 0x4400`, the rest as at reset. -/
def regs : Cpu := { Cpu.reset with pc := 0x4000, sp := 0x4400 }

/-- The raster and sync state at reset. -/
def raster : Ula := Ula.reset Config.default

/-- The default parameters with the software flip-flops. -/
def variantB : Config := { Config.default with machine := .ffVariant }

/-- EMU started at the default parameters, with a register file and bytes laid at CPU addresses, in ROM too. -/
def machine (c : Cpu) (cells : List (Word × List Byte)) : State :=
  cells.foldl (fun s p => s.pokeAt p.1 p.2) { State.reset.started with cpu := c }

/-- One step completes, and `q` holds of the state after it. -/
def after (s : State) (q : State → Bool) : Prop :=
  (match step s with
    | .next t => q t
    | _ => false) = true

/-- The pixels `(x, y)`, `(x + 1, y)`, ... of the draw buffer of the tests, `n` of them. -/
def videoRow (s : State) (x y n : Nat) : List Bool := (List.range n).map fun k => (s.pix.getD 0 []).pixel s.cfg.stride (x + k) y

/-- V40.2. -/
theorem test_refresh_keeps_bit_seven :
    after (machine { regs with r := 0xFF } [(0x4000, [0x00])]) fun t =>
      t.cpu.r == 0x80 && t.cpu.pc == 0x4001 && t.cycles == 4 := by
  unfold after; decide +kernel

/-- V40.1. -/
theorem test_refresh_wraps_low_bits :
    after (machine { regs with r := 0x7F } [(0x4000, [0x00])]) fun t =>
      t.cpu.r == 0 := by
  unfold after; decide +kernel

/-- V40.4. -/
theorem test_indexed_cb_counts_two_fetches :
    after (machine { regs with ix := 0x4100 } [(0x4000, [0xDD, 0xCB, 0x00, 0x06])]) fun t =>
      t.cpu.r == 2 && t.cpu.pc == 0x4004 && t.cycles == 23 := by
  unfold after; decide +kernel

/-- V40.13. -/
theorem test_counter_wraps_exactly :
    after { machine regs [(0x4000, [0x00])] with ts := 64166 } fun t =>
      t.ts == 0 && t.frames == 1 := by
  unfold after; decide +kernel

/-- V40.14. -/
theorem test_counter_keeps_residue :
    after { machine regs [(0x4000, [0xCD, 0x00, 0x41])] with ts := 64160 } fun t =>
      t.ts == 7 && t.frames == 1 := by
  unfold after; decide +kernel

/-- V40.15. -/
theorem test_frame_counter_wraps :
    after { machine regs [(0x4000, [0x00])] with ts := 64169, frames := 0xFFFFFFFF } fun t =>
      t.ts == 3 && t.frames == 0 := by
  unfold after; decide +kernel

/-- V41.1. -/
theorem test_ld_r_r :
    after (machine { regs with b := 0x11, c := 0x22 } [(0x4000, [0x41])]) fun t =>
      t.cpu.bc == 0x2222 && t.cycles == 4 := by
  unfold after; decide +kernel

/-- V41.2. -/
theorem test_ld_hl_n :
    after (machine { regs with h := 0x41 } [(0x4000, [0x36, 0x5A])]) fun t =>
      t.memRead 0x4100 == 0x5A && t.cycles == 10 := by
  unfold after; decide +kernel

/-- V41.3. -/
theorem test_ld_hl_n_rom_discards :
    after (machine { regs with h := 0x01 } [(0x4000, [0x36, 0x5A])]) fun t =>
      t.memRead 0x0100 == 0 && t.cycles == 10 := by
  unfold after; decide +kernel

/-- V41.4. -/
theorem test_ld_a_nn :
    after (machine regs [(0x4000, [0x3A, 0x00, 0x41]), (0x4100, [0x77])]) fun t =>
      t.cpu.a == 0x77 && t.cpu.pc == 0x4003 && t.cycles == 13 := by
  unfold after; decide +kernel

/-- V41.5. -/
theorem test_ld_nn_hl :
    after (machine { regs with h := 0xBE, l := 0xEF } [(0x4000, [0x22, 0xFF, 0x40])]) fun t =>
      t.memRead 0x40FF == 0xEF && t.memRead 0x4100 == 0xBE && t.cycles == 16 := by
  unfold after; decide +kernel

/-- V41.6. -/
theorem test_ld_sp_from_memory :
    after (machine regs [(0x4000, [0xED, 0x7B, 0x00, 0x41]), (0x4100, [0x34, 0x12])]) fun t =>
      t.cpu.sp == 0x1234 && t.cpu.r == 2 && t.cycles == 20 := by
  unfold after; decide +kernel

/-- V41.7. -/
theorem test_push_bc :
    after (machine { regs with b := 0x12, c := 0x34 } [(0x4000, [0xC5])]) fun t =>
      t.cpu.sp == 0x43FE && t.memRead 0x43FF == 0x12 && t.memRead 0x43FE == 0x34 := by
  unfold after; decide +kernel

/-- V41.9. -/
theorem test_push_wraps_and_discards_in_rom :
    after (machine { regs with b := 0x12, c := 0x34, sp := 1 } [(0x4000, [0xC5])]) fun t =>
      t.cpu.sp == 0xFFFF && t.memRead 0 == 0 && t.memRead 0xFFFF == 0x34 := by
  unfold after; decide +kernel

/-- V41.8. -/
theorem test_pop_af :
    after (machine { regs with sp := 0x4100 } [(0x4000, [0xF1]), (0x4100, [0xD7, 0x9A])]) fun t =>
      t.cpu.a == 0x9A && t.cpu.f == 0xD7 && t.cpu.sp == 0x4102 := by
  unfold after; decide +kernel

/-- V41.10. -/
theorem test_ld_r_indexed_backwards :
    after (machine { regs with ix := 0x4101 } [(0x4000, [0xDD, 0x7E, 0xFE]), (0x40FF, [0x99])]) fun t =>
      t.cpu.a == 0x99 && t.cycles == 19 := by
  unfold after; decide +kernel

/-- V41.12. -/
theorem test_ld_h_indexed_is_h :
    after (machine { regs with ix := 0x4100 } [(0x4000, [0xDD, 0x66, 0x01]), (0x4101, [0x5C])]) fun t =>
      t.cpu.hl == 0x5C00 && t.cpu.ix == 0x4100 := by
  unfold after; decide +kernel

/-- V41.11. -/
theorem test_ld_indexed_r :
    after (machine { regs with iy := 0x4100, b := 0xAB } [(0x4000, [0xFD, 0x70, 0x7F])]) fun t =>
      t.memRead 0x417F == 0xAB && t.cycles == 19 := by
  unfold after; decide +kernel

/-- V41.13. -/
theorem test_ld_a_i :
    after (machine { regs with i := 0x80, iff2 := true, f := 0x01 } [(0x4000, [0xED, 0x57])]) fun t =>
      t.cpu.a == 0x80 && t.cpu.f == 0x85 && t.cycles == 9 := by
  unfold after; decide +kernel

/-- V41.14. -/
theorem test_ld_a_r_after_increments :
    after (machine { regs with r := 0x7E, f := 0xFF } [(0x4000, [0xED, 0x5F])]) fun t =>
      t.cpu.a == 0 && t.cpu.f == 0x41 && t.cpu.r == 0 := by
  unfold after; decide +kernel

/-- V41.15. -/
theorem test_ld_r_a_all_bits :
    after (machine { regs with a := 0xFF, r := 0x10 } [(0x4000, [0xED, 0x4F])]) fun t =>
      t.cpu.r == 0xFF := by
  unfold after; decide +kernel

/-- V41.16. -/
theorem test_ex_af :
    after (machine { regs with a := 1, f := 2, a2 := 3, f2 := 4 } [(0x4000, [0x08])]) fun t =>
      t.cpu.af == 0x0304 && t.cpu.a2 == 1 && t.cpu.f2 == 2 := by
  unfold after; decide +kernel

/-- V41.17. -/
theorem test_exx :
    after (machine { regs with b := 1, e := 4, h := 5, c2 := 0x12, d2 := 0x13, l2 := 0x16 } [(0x4000, [0xD9])]) fun t =>
      t.cpu.bc == 0x0012 && t.cpu.de == 0x1300 && t.cpu.hl == 0x0016 && t.cpu.b2 == 1 && t.cpu.e2 == 4 && t.cpu.h2 == 5 := by
  unfold after; decide +kernel

/-- V41.18. -/
theorem test_ex_sp_hl :
    after (machine { regs with h := 0x12, l := 0x34, sp := 0x4100 } [(0x4000, [0xE3]), (0x4100, [0x78, 0x56])]) fun t =>
      t.cpu.hl == 0x5678 && t.memRead 0x4100 == 0x34 && t.memRead 0x4101 == 0x12 && t.cycles == 19 := by
  unfold after; decide +kernel

/-- V41.19. -/
theorem test_ex_de_hl :
    after (machine { regs with d := 0x11, e := 0x10, h := 0x22, l := 0x20 } [(0x4000, [0xEB])]) fun t =>
      t.cpu.de == 0x2220 && t.cpu.hl == 0x1110 := by
  unfold after; decide +kernel

/-- V41.20. -/
theorem test_ldi_last :
    after (machine { regs with h := 0x41, d := 0x42, c := 1, a := 0x20, f := 0xFF }
      [(0x4000, [0xED, 0xA0]), (0x4100, [0x0A])]) fun t =>
      t.memRead 0x4200 == 0x0A && t.cpu.hl == 0x4101 && t.cpu.de == 0x4201 && t.cpu.bc == 0 && t.cpu.f == 0xE9 := by
  unfold after; decide +kernel

/-- V41.21. -/
theorem test_ldi_counter_wraps :
    after (machine { regs with h := 0x41, d := 0x42 } [(0x4000, [0xED, 0xA0]), (0x4100, [0x02])]) fun t =>
      t.cpu.bc == 0xFFFF && t.cpu.f == 0x24 := by
  unfold after; decide +kernel

/-- V41.22. -/
theorem test_ldir_repeats :
    after (machine { regs with h := 0x41, d := 0x42, c := 3 } [(0x4000, [0xED, 0xB0]), (0x4100, [0x01, 0x02, 0x03])]) fun t =>
      t.cycles == 21 && t.cpu.pc == 0x4000 && t.cpu.bc == 2 && t.cpu.r == 2 := by
  unfold after; decide +kernel

/-- V41.23. -/
theorem test_lddr_repeats :
    after (machine { regs with h := 0x41, l := 2, d := 0x42, e := 2, c := 2 }
      [(0x4000, [0xED, 0xB8]), (0x4100, [0x01, 0x02, 0x03])]) fun t =>
      t.cycles == 21 && t.memRead 0x4202 == 3 && t.cpu.hl == 0x4101 && t.cpu.de == 0x4201 := by
  unfold after; decide +kernel

/-- V41.24, its last step. -/
theorem test_cpir_stops_on_match :
    after (machine { regs with h := 0x41, l := 2, c := 2, a := 0x33, f := 0x01 }
      [(0x4000, [0xED, 0xB1]), (0x4102, [0x33])]) fun t =>
      t.cycles == 16 && t.cpu.hl == 0x4103 && t.cpu.bc == 1 && t.cpu.f == 0x47 := by
  unfold after; decide +kernel

/-- V41.26. -/
theorem test_cpd_half_borrow :
    after (machine { regs with h := 0x41, c := 5, a := 0x10 } [(0x4000, [0xED, 0xA9]), (0x4100, [0x01])]) fun t =>
      t.cpu.hl == 0x40FF && t.cpu.bc == 4 && t.cpu.f == 0x3E := by
  unfold after; decide +kernel

/-- V41.27. -/
theorem test_ld_sp_hl :
    after (machine { regs with h := 0x80 } [(0x4000, [0xF9])]) fun t =>
      t.cpu.sp == 0x8000 && t.cycles == 6 := by
  unfold after; decide +kernel

/-- V41.28. -/
theorem test_push_ix :
    after (machine { regs with ix := 0xCAFE } [(0x4000, [0xDD, 0xE5])]) fun t =>
      t.cpu.sp == 0x43FE && t.memRead16 0x43FE == 0xCAFE && t.cycles == 15 := by
  unfold after; decide +kernel

/-- V41.29. -/
theorem test_ld_nn_bc :
    after (machine { regs with b := 0xA1, c := 0xB2 } [(0x4000, [0xED, 0x43, 0x00, 0x41])]) fun t =>
      t.memRead16 0x4100 == 0xA1B2 && t.cycles == 20 := by
  unfold after; decide +kernel

/-- V41.30. -/
theorem test_ld_hl_from_top :
    after (machine regs [(0x4000, [0x2A, 0xFF, 0xFF]), (0xFFFF, [0x34])]) fun t =>
      t.cpu.hl == 0x0034 := by
  unfold after; decide +kernel

/-- V42.1. -/
theorem test_add_overflow :
    after (machine { regs with a := 0x7F } [(0x4000, [0xC6, 0x01])]) fun t =>
      t.cpu.a == 0x80 && t.cpu.f == 0x94 && t.cycles == 7 := by
  unfold after; decide +kernel

/-- V42.3. -/
theorem test_add_carry_without_half :
    after (machine { regs with a := 0x80 } [(0x4000, [0xC6, 0x80])]) fun t =>
      t.cpu.a == 0 && t.cpu.f == 0x45 := by
  unfold after; decide +kernel

/-- V42.6. -/
theorem test_adc_carry_in :
    after (machine { regs with a := 0xFF, f := 1 } [(0x4000, [0xCE, 0x00])]) fun t =>
      t.cpu.a == 0 && t.cpu.f == 0x51 := by
  unfold after; decide +kernel

/-- V42.8. -/
theorem test_sub_borrow :
    after (machine regs [(0x4000, [0xD6, 0x01])]) fun t =>
      t.cpu.a == 0xFF && t.cpu.f == 0xBB := by
  unfold after; decide +kernel

/-- V42.9. -/
theorem test_sub_overflow :
    after (machine { regs with a := 0x80 } [(0x4000, [0xD6, 0x01])]) fun t =>
      t.cpu.a == 0x7F && t.cpu.f == 0x3E := by
  unfold after; decide +kernel

/-- V42.11. -/
theorem test_sbc_borrow_of_all :
    after (machine { regs with f := 1 } [(0x4000, [0xDE, 0xFF])]) fun t =>
      t.cpu.a == 0 && t.cpu.f == 0x53 := by
  unfold after; decide +kernel

/-- V42.13. -/
theorem test_and_parity :
    after (machine { regs with a := 0xF0, f := 1 } [(0x4000, [0xE6, 0x0F])]) fun t =>
      t.cpu.a == 0 && t.cpu.f == 0x54 := by
  unfold after; decide +kernel

/-- V42.14. -/
theorem test_xor_self :
    after (machine { regs with a := 0x77, f := 0xFF } [(0x4000, [0xAF])]) fun t =>
      t.cpu.a == 0 && t.cpu.f == 0x44 && t.cycles == 4 := by
  unfold after; decide +kernel

/-- V42.15. -/
theorem test_or_self :
    after (machine { regs with a := 0x80, f := 3 } [(0x4000, [0xB7])]) fun t =>
      t.cpu.a == 0x80 && t.cpu.f == 0x80 := by
  unfold after; decide +kernel

/-- V42.16. -/
theorem test_cp_takes_xy_from_operand :
    after (machine { regs with a := 0x10 } [(0x4000, [0xFE, 0x28])]) fun t =>
      t.cpu.a == 0x10 && t.cpu.f == 0xBB := by
  unfold after; decide +kernel

/-- V42.18. -/
theorem test_cp_overflow :
    after (machine { regs with a := 0x7F } [(0x4000, [0xFE, 0x80])]) fun t =>
      t.cpu.f == 0x87 := by
  unfold after; decide +kernel

/-- V42.19. -/
theorem test_inc_keeps_carry :
    after (machine { regs with a := 0x7F, f := 1 } [(0x4000, [0x3C])]) fun t =>
      t.cpu.a == 0x80 && t.cpu.f == 0x95 := by
  unfold after; decide +kernel

/-- V42.21. -/
theorem test_dec_keeps_carry :
    after (machine { regs with f := 1 } [(0x4000, [0x3D])]) fun t =>
      t.cpu.a == 0xFF && t.cpu.f == 0xBB := by
  unfold after; decide +kernel

/-- V42.23. -/
theorem test_dec_at_hl :
    after (machine { regs with h := 0x41 } [(0x4000, [0x35]), (0x4100, [0x01])]) fun t =>
      t.memRead 0x4100 == 0 && t.cpu.f == 0x42 && t.cycles == 11 := by
  unfold after; decide +kernel

/-- V42.24. -/
theorem test_inc_at_hl_in_rom :
    after (machine regs [(0x4000, [0x34])]) fun t =>
      t.memRead 0 == 0 && t.cpu.f == 0 && t.cycles == 11 := by
  unfold after; decide +kernel

/-- V42.25. -/
theorem test_inc_indexed :
    after (machine { regs with ix := 0x4101, f := 1 } [(0x4000, [0xDD, 0x34, 0xFF]), (0x4100, [0x0F])]) fun t =>
      t.memRead 0x4100 == 0x10 && t.cpu.f == 0x11 && t.cycles == 23 := by
  unfold after; decide +kernel

/-- V42.26. -/
theorem test_daa_after_addition :
    after (machine { regs with a := 0x9A } [(0x4000, [0x27])]) fun t =>
      t.cpu.a == 0 && t.cpu.f == 0x55 := by
  unfold after; decide +kernel

/-- V42.28. -/
theorem test_daa_after_subtraction :
    after (machine { regs with f := 0x13 } [(0x4000, [0x27])]) fun t =>
      t.cpu.a == 0x9A && t.cpu.f == 0x9F := by
  unfold after; decide +kernel

/-- V42.33. -/
theorem test_cpl :
    after (machine { regs with a := 0x5A, f := 0xC5 } [(0x4000, [0x2F])]) fun t =>
      t.cpu.a == 0xA5 && t.cpu.f == 0xF7 := by
  unfold after; decide +kernel

/-- V42.34. -/
theorem test_neg_overflow :
    after (machine { regs with a := 0x80 } [(0x4000, [0xED, 0x44])]) fun t =>
      t.cpu.a == 0x80 && t.cpu.f == 0x87 && t.cycles == 8 := by
  unfold after; decide +kernel

/-- V42.35. -/
theorem test_neg_zero :
    after (machine { regs with f := 0xFF } [(0x4000, [0xED, 0x44])]) fun t =>
      t.cpu.a == 0 && t.cpu.f == 0x42 := by
  unfold after; decide +kernel

/-- V42.36 (its X and Y are free). -/
theorem test_ccf_runs :
    after (machine { regs with f := 1 } [(0x4000, [0x3F])]) fun t =>
      t.cycles == 4 && t.cpu.pc == 0x4001 && t.freeCount == 1 := by
  unfold after; decide +kernel

/-- V42.38 (its X and Y are free). -/
theorem test_scf_runs :
    after (machine { regs with f := 0xD6 } [(0x4000, [0x37])]) fun t =>
      t.cycles == 4 && t.cpu.pc == 0x4001 && t.freeCount == 1 := by
  unfold after; decide +kernel

/-- V42.39. -/
theorem test_di :
    after (machine { regs with iff1 := true, iff2 := true } [(0x4000, [0xF3])]) fun t =>
      t.cpu.iff1 == false && t.cpu.iff2 == false := by
  unfold after; decide +kernel

/-- V42.40. -/
theorem test_ei :
    after (machine regs [(0x4000, [0xFB])]) fun t =>
      t.cpu.iff1 && t.cpu.iff2 && t.cpu.eiDelay := by
  unfold after; decide +kernel

/-- V42.41. -/
theorem test_im_2 :
    after (machine regs [(0x4000, [0xED, 0x5E])]) fun t =>
      t.cpu.im == .im2 && t.cycles == 8 := by
  unfold after; decide +kernel

/-- V42.42. -/
theorem test_halt :
    after (machine regs [(0x4000, [0x76])]) fun t =>
      t.cpu.halted && t.cpu.pc == 0x4000 && t.cpu.r == 1 := by
  unfold after; decide +kernel

/-- V42.43. -/
theorem test_add_hl_half_from_bit_eleven :
    after (machine { regs with h := 0x0F, l := 0xFF, c := 1, f := 0xC7 } [(0x4000, [0x09])]) fun t =>
      t.cpu.hl == 0x1000 && t.cpu.f == 0xD4 && t.cycles == 11 := by
  unfold after; decide +kernel

/-- V42.46. -/
theorem test_adc_hl_overflow :
    after (machine { regs with h := 0x7F, l := 0xFF, f := 1 } [(0x4000, [0xED, 0x5A])]) fun t =>
      t.cpu.hl == 0x8000 && t.cpu.f == 0x94 && t.cycles == 15 := by
  unfold after; decide +kernel

/-- V42.51. -/
theorem test_sbc_hl_zero_of_sixteen :
    after (machine { regs with h := 0x10, d := 0x0F, e := 0xFF, f := 1 } [(0x4000, [0xED, 0x52])]) fun t =>
      t.cpu.hl == 0 && t.cpu.f == 0x52 := by
  unfold after; decide +kernel

/-- V42.48. -/
theorem test_sbc_hl_borrow :
    after (machine { regs with c := 1 } [(0x4000, [0xED, 0x42])]) fun t =>
      t.cpu.hl == 0xFFFF && t.cpu.f == 0xBB := by
  unfold after; decide +kernel

/-- V42.52. -/
theorem test_add_ix_own :
    after (machine { regs with ix := 0x4800, h := 0x11 } [(0x4000, [0xDD, 0x29])]) fun t =>
      t.cpu.ix == 0x9000 && t.cpu.hl == 0x1100 && t.cpu.f == 0x10 := by
  unfold after; decide +kernel

/-- V42.53. -/
theorem test_add_iy_bc :
    after (machine { regs with iy := 0xF000, b := 0x10, f := 0x44 } [(0x4000, [0xFD, 0x09])]) fun t =>
      t.cpu.iy == 0 && t.cpu.f == 0x45 && t.cycles == 15 := by
  unfold after; decide +kernel

/-- V42.54. -/
theorem test_inc_pair_no_flags :
    after (machine { regs with b := 0xFF, c := 0xFF, f := 0xA5 } [(0x4000, [0x03])]) fun t =>
      t.cpu.bc == 0 && t.cpu.f == 0xA5 && t.cycles == 6 := by
  unfold after; decide +kernel

/-- V42.55. -/
theorem test_dec_pair :
    after (machine regs [(0x4000, [0x2B])]) fun t =>
      t.cpu.hl == 0xFFFF := by
  unfold after; decide +kernel

/-- V42.56. -/
theorem test_dec_ix :
    after (machine regs [(0x4000, [0xDD, 0x2B])]) fun t =>
      t.cpu.ix == 0xFFFF && t.cycles == 10 := by
  unfold after; decide +kernel

/-- V43.1. -/
theorem test_rlca :
    after (machine { regs with a := 0x81, f := 0xFE } [(0x4000, [0x07])]) fun t =>
      t.cpu.a == 3 && t.cpu.f == 0xC5 := by
  unfold after; decide +kernel

/-- V43.2. -/
theorem test_rla :
    after (machine { regs with a := 0x80 } [(0x4000, [0x17])]) fun t =>
      t.cpu.a == 0 && t.cpu.f == 1 := by
  unfold after; decide +kernel

/-- V43.4. -/
theorem test_rrca :
    after (machine { regs with a := 1 } [(0x4000, [0x0F])]) fun t =>
      t.cpu.a == 0x80 && t.cpu.f == 1 := by
  unfold after; decide +kernel

/-- V43.5. -/
theorem test_rra :
    after (machine { regs with a := 1, f := 1 } [(0x4000, [0x1F])]) fun t =>
      t.cpu.a == 0x80 && t.cpu.f == 1 := by
  unfold after; decide +kernel

/-- V43.6. -/
theorem test_rlc_b :
    after (machine { regs with b := 0x80 } [(0x4000, [0xCB, 0x00])]) fun t =>
      t.cpu.b == 1 && t.cpu.f == 1 && t.cpu.r == 2 := by
  unfold after; decide +kernel

/-- V43.7. -/
theorem test_rl_c :
    after (machine { regs with c := 0x80 } [(0x4000, [0xCB, 0x11])]) fun t =>
      t.cpu.c == 0 && t.cpu.f == 0x45 := by
  unfold after; decide +kernel

/-- V43.8. -/
theorem test_rrc_d :
    after (machine { regs with d := 1 } [(0x4000, [0xCB, 0x0A])]) fun t =>
      t.cpu.d == 0x80 && t.cpu.f == 0x81 := by
  unfold after; decide +kernel

/-- V43.9. -/
theorem test_rr_e :
    after (machine { regs with f := 1 } [(0x4000, [0xCB, 0x1B])]) fun t =>
      t.cpu.e == 0x80 && t.cpu.f == 0x80 := by
  unfold after; decide +kernel

/-- V43.10. -/
theorem test_sla_a :
    after (machine { regs with a := 0xC0 } [(0x4000, [0xCB, 0x27])]) fun t =>
      t.cpu.a == 0x80 && t.cpu.f == 0x81 := by
  unfold after; decide +kernel

/-- V43.11. -/
theorem test_sra_h :
    after (machine { regs with h := 0x81 } [(0x4000, [0xCB, 0x2C])]) fun t =>
      t.cpu.h == 0xC0 && t.cpu.f == 0x85 := by
  unfold after; decide +kernel

/-- V43.12. -/
theorem test_srl_l :
    after (machine { regs with l := 1 } [(0x4000, [0xCB, 0x3D])]) fun t =>
      t.cpu.l == 0 && t.cpu.f == 0x45 := by
  unfold after; decide +kernel

/-- V43.13. -/
theorem test_rlc_at_hl :
    after (machine { regs with h := 0x41 } [(0x4000, [0xCB, 0x06]), (0x4100, [0x55])]) fun t =>
      t.memRead 0x4100 == 0xAA && t.cpu.f == 0xAC && t.cycles == 15 := by
  unfold after; decide +kernel

/-- V43.15. -/
theorem test_rr_indexed :
    after (machine { regs with ix := 0x4100, f := 1 } [(0x4000, [0xDD, 0xCB, 0x02, 0x1E]), (0x4102, [0x02])]) fun t =>
      t.memRead 0x4102 == 0x81 && t.cpu.f == 0x84 && t.cycles == 23 := by
  unfold after; decide +kernel

/-- V43.16. -/
theorem test_rld :
    after (machine { regs with a := 0x7A, h := 0x41, f := 1 } [(0x4000, [0xED, 0x6F]), (0x4100, [0x31])]) fun t =>
      t.cpu.a == 0x73 && t.memRead 0x4100 == 0x1A && t.cpu.f == 0x21 && t.cycles == 18 := by
  unfold after; decide +kernel

/-- V43.17. -/
theorem test_rrd :
    after (machine { regs with a := 0x84, h := 0x41 } [(0x4000, [0xED, 0x67]), (0x4100, [0x20])]) fun t =>
      t.cpu.a == 0x80 && t.memRead 0x4100 == 0x42 && t.cpu.f == 0x80 := by
  unfold after; decide +kernel

/-- V43.18. -/
theorem test_bit_seven_sets_sign :
    after (machine { regs with a := 0x80 } [(0x4000, [0xCB, 0x7F])]) fun t =>
      t.cpu.f == 0x90 := by
  unfold after; decide +kernel

/-- V43.19. -/
theorem test_bit_clear :
    after (machine { regs with a := 0x80, f := 1 } [(0x4000, [0xCB, 0x47])]) fun t =>
      t.cpu.f == 0x55 := by
  unfold after; decide +kernel

/-- V43.21 (its X and Y are free). -/
theorem test_bit_at_hl_runs :
    after (machine { regs with h := 0x41 } [(0x4000, [0xCB, 0x46]), (0x4100, [0x01])]) fun t =>
      t.cycles == 12 && t.freeCount == 1 := by
  unfold after; decide +kernel

/-- V43.22. -/
theorem test_bit_indexed_takes_xy_from_address :
    after (machine { regs with iy := 0x2900, f := 1 } [(0x4000, [0xFD, 0xCB, 0xFF, 0x7E])]) fun t =>
      t.cpu.f == 0x7D && t.cycles == 20 := by
  unfold after; decide +kernel

/-- V43.23. -/
theorem test_set_at_hl :
    after (machine { regs with h := 0x41, f := 0xFF } [(0x4000, [0xCB, 0xFE])]) fun t =>
      t.memRead 0x4100 == 0x80 && t.cpu.f == 0xFF && t.cycles == 15 := by
  unfold after; decide +kernel

/-- V43.24. -/
theorem test_res_a :
    after (machine { regs with a := 0xFF, f := 0xFF } [(0x4000, [0xCB, 0x87])]) fun t =>
      t.cpu.a == 0xFE && t.cpu.f == 0xFF := by
  unfold after; decide +kernel

/-- V43.25. -/
theorem test_set_indexed :
    after (machine { regs with ix := 0x4100 } [(0x4000, [0xDD, 0xCB, 0x00, 0xC6]), (0x4100, [0x10])]) fun t =>
      t.memRead 0x4100 == 0x11 && t.cycles == 23 := by
  unfold after; decide +kernel

/-- V44.1. -/
theorem test_jp :
    after (machine regs [(0x4000, [0xC3, 0x34, 0x12])]) fun t =>
      t.cpu.pc == 0x1234 && t.cycles == 10 := by
  unfold after; decide +kernel

/-- V44.2. -/
theorem test_jp_z_falls_through :
    after (machine regs [(0x4000, [0xCA, 0x34, 0x12])]) fun t =>
      t.cpu.pc == 0x4003 && t.cycles == 10 := by
  unfold after; decide +kernel

/-- V44.4. -/
theorem test_jp_po_wants_parity_odd :
    after (machine { regs with f := 4 } [(0x4000, [0xE2, 0x00, 0x50])]) fun t =>
      t.cpu.pc == 0x4003 := by
  unfold after; decide +kernel

/-- V44.5. -/
theorem test_jp_m_taken :
    after (machine { regs with f := 0x80 } [(0x4000, [0xFA, 0x00, 0x50])]) fun t =>
      t.cpu.pc == 0x5000 := by
  unfold after; decide +kernel

/-- V44.8. -/
theorem test_jr_backwards :
    after (machine regs [(0x4000, [0x18, 0x80])]) fun t =>
      t.cpu.pc == 0x3F82 && t.cycles == 12 := by
  unfold after; decide +kernel

/-- V44.10. -/
theorem test_jr_c_falls_through :
    after (machine regs [(0x4000, [0x38, 0x05])]) fun t =>
      t.cpu.pc == 0x4002 && t.cycles == 7 := by
  unfold after; decide +kernel

/-- V44.11. -/
theorem test_jr_nc_taken :
    after (machine regs [(0x4000, [0x30, 0x05])]) fun t =>
      t.cpu.pc == 0x4007 && t.cycles == 12 := by
  unfold after; decide +kernel

/-- V44.12. -/
theorem test_jp_hl :
    after (machine { regs with h := 0x43, l := 0x21 } [(0x4000, [0xE9])]) fun t =>
      t.cpu.pc == 0x4321 && t.cycles == 4 := by
  unfold after; decide +kernel

/-- V44.13. -/
theorem test_jp_iy :
    after (machine { regs with iy := 0x8765 } [(0x4000, [0xFD, 0xE9])]) fun t =>
      t.cpu.pc == 0x8765 && t.cpu.r == 2 && t.cycles == 8 := by
  unfold after; decide +kernel

/-- V44.14. -/
theorem test_djnz_ends :
    after (machine { regs with b := 1 } [(0x4000, [0x10, 0xFE])]) fun t =>
      t.cpu.b == 0 && t.cpu.pc == 0x4002 && t.cycles == 8 := by
  unfold after; decide +kernel

/-- V44.15. -/
theorem test_djnz_wraps :
    after (machine regs [(0x4000, [0x10, 0xFE])]) fun t =>
      t.cpu.b == 0xFF && t.cpu.pc == 0x4000 && t.cycles == 13 := by
  unfold after; decide +kernel

/-- V44.16. -/
theorem test_call :
    after (machine regs [(0x4000, [0xCD, 0x00, 0x41])]) fun t =>
      t.cpu.sp == 0x43FE && t.memRead16 0x43FE == 0x4003 && t.cpu.pc == 0x4100 && t.cycles == 17 := by
  unfold after; decide +kernel

/-- V44.17. -/
theorem test_call_c_not_taken :
    after (machine regs [(0x4000, [0xDC, 0x00, 0x41])]) fun t =>
      t.cpu.pc == 0x4003 && t.cpu.sp == 0x4400 && t.cycles == 10 := by
  unfold after; decide +kernel

/-- V44.18. -/
theorem test_ret :
    after (machine { regs with sp := 0x4100 } [(0x4000, [0xC9]), (0x4100, [0x03, 0x40])]) fun t =>
      t.cpu.pc == 0x4003 && t.cpu.sp == 0x4102 && t.cycles == 10 := by
  unfold after; decide +kernel

/-- V44.19. -/
theorem test_ret_nz_not_taken :
    after (machine { regs with f := 0x40 } [(0x4000, [0xC0])]) fun t =>
      t.cpu.pc == 0x4001 && t.cycles == 5 := by
  unfold after; decide +kernel

/-- V44.20. -/
theorem test_ret_z_taken :
    after (machine { regs with f := 0x40, sp := 0x4100 } [(0x4000, [0xC8]), (0x4100, [0x03, 0x40])]) fun t =>
      t.cpu.pc == 0x4003 && t.cycles == 11 := by
  unfold after; decide +kernel

/-- V44.21. -/
theorem test_rst :
    after (machine regs [(0x4000, [0xEF])]) fun t =>
      t.cpu.pc == 0x0028 && t.memRead16 0x43FE == 0x4001 && t.cycles == 11 := by
  unfold after; decide +kernel

/-- V44.22. -/
theorem test_retn :
    after (machine { regs with iff2 := true, sp := 0x4100 } [(0x4000, [0xED, 0x45]), (0x4100, [0x00, 0x50])]) fun t =>
      t.cpu.pc == 0x5000 && t.cpu.iff1 && t.cpu.sp == 0x4102 := by
  unfold after; decide +kernel

/-- V44.23. -/
theorem test_reti :
    after (machine { regs with iff1 := true, sp := 0x4100 } [(0x4000, [0xED, 0x4D]), (0x4100, [0x00, 0x50])]) fun t =>
      t.cpu.pc == 0x5000 && t.cpu.iff1 == false && t.cycles == 14 := by
  unfold after; decide +kernel

/-- V45.1. -/
theorem test_in_a_raises_vertical_sync :
    after (machine { regs with a := 0x7F, f := 0xFF } [(0x4000, [0xDB, 0xFE])]) fun t =>
      t.ula.vsyncState && t.ula.vsX == 0 && t.ula.syncLen == 11 && t.cpu.f == 0xFF && t.cycles == 11 := by
  unfold after; decide +kernel

/-- V45.2. -/
theorem test_in_a_with_generator_on :
    after { machine { regs with a := 0x7F } [(0x4000, [0xDB, 0xFE])] with ula := { raster with nmiGenOn := true } } fun t =>
      t.ula.vsyncState == false := by
  unfold after; decide +kernel

/-- V45.4. -/
theorem test_out_fe_generator_on :
    after (machine regs [(0x4000, [0xD3, 0xFE])]) fun t =>
      t.ula.nmiGenOn && t.cycles == 11 := by
  unfold after; decide +kernel

/-- V45.5. -/
theorem test_out_fd_generator_off :
    after { machine regs [(0x4000, [0xD3, 0xFD])] with ula := { raster with nmiGenOn := true } } fun t =>
      t.ula.nmiGenOn == false := by
  unfold after; decide +kernel

/-- V45.8 (the byte is the oracle's). -/
theorem test_in_c_runs :
    after (machine { regs with b := 0x12, c := 0xFE } [(0x4000, [0xED, 0x50])]) fun t =>
      t.cycles == 12 && t.ula.vsyncState && t.cpu.bc == 0x12FE := by
  unfold after; decide +kernel

/-- V45.9. -/
theorem test_in_f_c_runs :
    after (machine { regs with b := 0x12, c := 0xFF } [(0x4000, [0xED, 0x70])]) fun t =>
      t.cycles == 12 && t.ula.vsyncState == false := by
  unfold after; decide +kernel

/-- V45.10. -/
theorem test_inir_repeats :
    after (machine { regs with b := 2, c := 0xFF, h := 0x41 } [(0x4000, [0xED, 0xB2])]) fun t =>
      t.cycles == 21 && t.cpu.b == 1 && t.cpu.hl == 0x4101 && t.cpu.pc == 0x4000 := by
  unfold after; decide +kernel

/-- V45.11. -/
theorem test_outi_lowers_b_first :
    after { machine { regs with b := 1, c := 0xFF, h := 0x41 } [(0x4000, [0xED, 0xA3]), (0x4100, [0x77])] with
      cfg := { Config.default with soundPorts := [(0x00FF, 0x00FF)] } } fun t =>
      t.soundLog == [⟨0x00FF, 0x77, 0, 0⟩] && t.cpu.b == 0 && t.cpu.hl == 0x4101 && t.cycles == 16 := by
  unfold after; decide +kernel

/-- V45.12. -/
theorem test_in_sets_l1_in_variant_b :
    after { machine { regs with a := 0x7F } [(0x4000, [0xDB, 0xFE])] with cfg := variantB } fun t =>
      t.ula.l1 && t.ula.l3 && t.ula.syncLen == 11 && t.ula.vsX == 2 := by
  unfold after; decide +kernel

/-- V45.14. -/
theorem test_out_c_0 :
    after { machine { regs with c := 0xFD } [(0x4000, [0xED, 0x71])] with ula := { raster with nmiGenOn := true } } fun t =>
      t.ula.nmiGenOn == false && t.cycles == 12 := by
  unfold after; decide +kernel

/-- V46.1. -/
theorem test_ld_a_ixh :
    after (machine { regs with ix := 0x1234 } [(0x4000, [0xDD, 0x7C])]) fun t =>
      t.cpu.a == 0x12 && t.cycles == 8 := by
  unfold after; decide +kernel

/-- V46.2. -/
theorem test_ld_ixh_ixl :
    after (machine { regs with ix := 0x1234, h := 0xAA } [(0x4000, [0xDD, 0x65])]) fun t =>
      t.cpu.ix == 0x3434 && t.cpu.h == 0xAA := by
  unfold after; decide +kernel

/-- V46.3. -/
theorem test_ld_iyh_n :
    after (machine { regs with iy := 0x0011 } [(0x4000, [0xFD, 0x26, 0x99])]) fun t =>
      t.cpu.iy == 0x9911 && t.cycles == 11 := by
  unfold after; decide +kernel

/-- V46.4. -/
theorem test_add_a_iyl :
    after (machine { regs with iy := 0x00FF, a := 1 } [(0x4000, [0xFD, 0x85])]) fun t =>
      t.cpu.a == 0 && t.cpu.f == 0x51 := by
  unfold after; decide +kernel

/-- V46.5. -/
theorem test_inc_ixl :
    after (machine { regs with ix := 0x12FF } [(0x4000, [0xDD, 0x2C])]) fun t =>
      t.cpu.ix == 0x1200 && t.cpu.f == 0x50 := by
  unfold after; decide +kernel

/-- V46.6. -/
theorem test_dec_ixh :
    after (machine { regs with ix := 0x0034, f := 1 } [(0x4000, [0xDD, 0x25])]) fun t =>
      t.cpu.ix == 0xFF34 && t.cpu.f == 0xBB := by
  unfold after; decide +kernel

/-- V46.7. -/
theorem test_sll_b :
    after (machine { regs with b := 0x80 } [(0x4000, [0xCB, 0x30])]) fun t =>
      t.cpu.b == 1 && t.cpu.f == 1 := by
  unfold after; decide +kernel

/-- V46.9. -/
theorem test_rlc_indexed_copy :
    after (machine { regs with ix := 0x4100 } [(0x4000, [0xDD, 0xCB, 0x01, 0x00]), (0x4101, [0x81])]) fun t =>
      t.memRead 0x4101 == 3 && t.cpu.b == 3 && t.cpu.f == 5 := by
  unfold after; decide +kernel

/-- V46.10. -/
theorem test_rlc_indexed_copy_in_rom :
    after (machine { regs with ix := 0x00FF, b := 0x55 } [(0x4000, [0xDD, 0xCB, 0x01, 0x00])]) fun t =>
      t.memRead 0x0100 == 0 && t.cpu.b == 0 && t.cpu.f == 0x44 := by
  unfold after; decide +kernel

/-- V46.11. -/
theorem test_set_indexed_copy :
    after (machine { regs with iy := 0x4100 } [(0x4000, [0xFD, 0xCB, 0x00, 0xFD]), (0x4100, [0x01])]) fun t =>
      t.memRead 0x4100 == 0x81 && t.cpu.l == 0x81 := by
  unfold after; decide +kernel

/-- V46.12. -/
theorem test_bit_indexed_mirror :
    after (machine { regs with ix := 0x4100, a := 0xEE } [(0x4000, [0xDD, 0xCB, 0x00, 0x47]), (0x4100, [0x01])]) fun t =>
      t.cpu.f == 0x10 && t.cpu.a == 0xEE := by
  unfold after; decide +kernel

/-- V46.13. -/
theorem test_neg_mirror :
    after (machine { regs with a := 1 } [(0x4000, [0xED, 0x54])]) fun t =>
      t.cpu.a == 0xFF && t.cpu.f == 0xBB := by
  unfold after; decide +kernel

/-- V46.14. -/
theorem test_retn_mirror :
    after (machine { regs with iff2 := true, sp := 0x4100 } [(0x4000, [0xED, 0x7D]), (0x4100, [0x00, 0x50])]) fun t =>
      t.cpu.pc == 0x5000 && t.cpu.iff1 := by
  unfold after; decide +kernel

/-- V46.15. -/
theorem test_im_mirror :
    after (machine { regs with im := .im2 } [(0x4000, [0xED, 0x6E])]) fun t =>
      t.cpu.im == .im0 := by
  unfold after; decide +kernel

/-- V46.16. -/
theorem test_im_1_mirror :
    after (machine regs [(0x4000, [0xED, 0x76])]) fun t =>
      t.cpu.im == .im1 := by
  unfold after; decide +kernel

/-- V46.18. -/
theorem test_undefined_ed_is_no_op :
    after (machine { regs with a := 5, f := 0xFF } [(0x4000, [0xED, 0xFF])]) fun t =>
      t.cpu == { regs with a := 5, f := 0xFF, pc := 0x4002, r := 2 } && t.cycles == 8 := by
  unfold after; decide +kernel

/-- V46.20. -/
theorem test_prefix_without_effect :
    after (machine { regs with c := 0x33 } [(0x4000, [0xFD, 0x41])]) fun t =>
      t.cpu.b == 0x33 && t.cpu.r == 2 && t.cycles == 8 := by
  unfold after; decide +kernel

/-- V46.21. -/
theorem test_prefix_before_ex_de_hl :
    after (machine { regs with d := 0x11, h := 0x22, ix := 0x3333 } [(0x4000, [0xDD, 0xEB])]) fun t =>
      t.cpu.de == 0x2200 && t.cpu.hl == 0x1100 && t.cpu.ix == 0x3333 := by
  unfold after; decide +kernel

/-- V46.22. -/
theorem test_last_index_prefix_counts :
    after (machine regs [(0x4000, [0xDD, 0xFD, 0x21, 0x34, 0x12])]) fun t =>
      t.cpu.iy == 0x1234 && t.cpu.ix == 0 && t.cpu.pc == 0x4005 && t.cpu.r == 3 && t.cycles == 18 := by
  unfold after; decide +kernel

/-- V46.23. -/
theorem test_three_index_prefixes :
    after (machine { regs with ix := 0xFFFF, iy := 0x5555 } [(0x4000, [0xFD, 0xDD, 0xDD, 0x23])]) fun t =>
      t.cpu.ix == 0 && t.cpu.iy == 0x5555 && t.cpu.r == 4 && t.cycles == 18 := by
  unfold after; decide +kernel

/-- V46.24. -/
theorem test_prefix_before_ed_is_dropped :
    after (machine { regs with h := 0x40, ix := 0x1111 } [(0x4000, [0xDD, 0xED, 0x6A])]) fun t =>
      t.cpu.hl == 0x8000 && t.cpu.f == 0x84 && t.cpu.ix == 0x1111 && t.cpu.r == 3 && t.cycles == 19 := by
  unfold after; decide +kernel

/-- V46.25. -/
theorem test_prefix_before_halt :
    after (machine regs [(0x4000, [0xDD, 0x76])]) fun t =>
      t.cpu.halted && t.cpu.pc == 0x4001 && t.cycles == 8 := by
  unfold after; decide +kernel

/-- V60.1. -/
theorem test_nmi_entry :
    after { machine { regs with iff1 := true, iff2 := true, r := 0x10, eiDelay := true } [(0x4000, [0x00])] with
      ula := { raster with nmiPending := true } } fun t =>
      t.cpu == { regs with pc := 0x0066, sp := 0x43FE, iff2 := true, r := 0x11 } && t.memRead16 0x43FE == 0x4000 &&
      t.cycles == 11 := by
  unfold after; decide +kernel

/-- V60.2. -/
theorem test_nmi_ends_halt :
    after { machine { regs with halted := true } [(0x4000, [0x76])] with ula := { raster with nmiPending := true } } fun t =>
      t.memRead16 0x43FE == 0x4001 && t.cpu.halted == false && t.cpu.pc == 0x0066 := by
  unfold after; decide +kernel

/-- V60.10. -/
theorem test_nmi_before_maskable :
    after { machine { regs with iff1 := true, iff2 := true, im := .im1, r := 1 } [(0x4000, [0x00])] with
      ula := { raster with nmiPending := true } } fun t =>
      t.cpu.pc == 0x0066 && t.cpu.iff1 == false && t.cpu.iff2 && t.cpu.r == 2 := by
  unfold after; decide +kernel

/-- V60.3. -/
theorem test_int_not_sampled :
    after (machine { regs with iff1 := true, im := .im1, r := 0x41 } [(0x4000, [0x00])]) fun t =>
      t.cpu.pc == 0x4001 && t.cpu.r == 0x42 && t.cycles == 4 := by
  unfold after; decide +kernel

/-- V60.4. -/
theorem test_int_mode_1 :
    after (machine { regs with iff1 := true, iff2 := true, im := .im1, r := 0x40 } [(0x4000, [0x00])]) fun t =>
      t.cpu == { regs with pc := 0x0038, sp := 0x43FE, im := .im1, r := 0x41 } && t.cycles == 13 := by
  unfold after; decide +kernel

/-- V60.5. -/
theorem test_int_not_sampled_at_zero :
    after (machine { regs with iff1 := true, im := .im1 } [(0x4000, [0x00])]) fun t =>
      t.cpu.pc == 0x4001 && t.cycles == 4 := by
  unfold after; decide +kernel

/-- V60.6. -/
theorem test_int_ignores_bit_seven :
    after (machine { regs with iff1 := true, im := .im1, r := 0x81 } [(0x4000, [0x00])]) fun t =>
      t.cpu.pc == 0x0038 && t.cpu.r == 0x82 := by
  unfold after; decide +kernel

/-- V60.7. -/
theorem test_int_mode_2 :
    after (machine { regs with iff1 := true, im := .im2, i := 0x41, r := 1 }
      [(0x4000, [0x00]), (0x41FF, [0x34, 0x52])]) fun t =>
      t.cpu.pc == 0x5234 && t.cpu.r == 2 && t.cycles == 19 := by
  unfold after; decide +kernel

/-- V60.8. -/
theorem test_int_mode_0 :
    after (machine { regs with iff1 := true, r := 1 } [(0x4000, [0x00])]) fun t =>
      t.cpu.pc == 0x0038 && t.cycles == 13 := by
  unfold after; decide +kernel

/-- V60.9, step 2. -/
theorem test_ei_delays_one_instruction :
    after (machine { regs with pc := 0x4001, iff1 := true, iff2 := true, im := .im1, r := 1, eiDelay := true }
      [(0x4000, [0xFB, 0x00, 0x00])]) fun t =>
      t.cpu.pc == 0x4002 && t.cpu.r == 2 && t.cpu.eiDelay == false := by
  unfold after; decide +kernel

/-- V60.11. -/
theorem test_int_acknowledge_pulse :
    after { machine { regs with iff1 := true, im := .im1, r := 1 } [(0x4000, [0x00])] with cfg := variantB } fun t =>
      t.ula.l2 && t.ula.l3 && t.ula.l2Len == 13 && t.ula.syncLen == 13 && t.ula.rasterX == 26 := by
  unfold after; decide +kernel

/-- V40.6. -/
theorem test_video_byte_inverted :
    after { machine { regs with pc := 0xC010, i := 0x1E } [(0x4010, [0x9C]), (0x1EE3, [0x3C])] with
      ula := { raster with rasterX := 64, rasterY := 10, row := 3 } } fun t =>
      videoRow t 64 10 8 == [true, true, false, false, false, false, true, true] &&
      t.cpu == { regs with pc := 0xC011, i := 0x1E, r := 1 } && t.ula.rasterX == 72 && t.ts == 4 := by
  unfold after; decide +kernel

/-- V40.7. -/
theorem test_no_video_byte_with_bit_six :
    after (machine { regs with pc := 0xC010 } [(0x4010, [0x76])]) fun t =>
      t.cpu.halted && t.cpu.pc == 0xC010 && t.pix == State.reset.pix := by
  unfold after; decide +kernel

/-- V40.8. -/
theorem test_m1not_exempts_the_mirror :
    after { machine { regs with pc := 0x8000 } [(0x0000, [0x3E, 0x55])] with
      cfg := { Config.default with m1not := true } } fun t =>
      t.cpu.a == 0x55 && t.cpu.pc == 0x8002 && t.cycles == 7 := by
  unfold after; decide +kernel

/-- V40.9. -/
theorem test_mirror_is_video_without_m1not :
    after (machine { regs with pc := 0x8000, i := 0x1E } [(0x0000, [0x3E, 0x55]), (0x1FF0, [0x81])]) fun t =>
      t.cpu.a == 0 && t.cpu.pc == 0x8001 && t.cycles == 4 &&
      videoRow t 0 0 8 == [true, false, false, false, false, false, false, true] := by
  unfold after; decide +kernel

/-- V40.12. -/
theorem test_video_byte_clipped_at_the_edge :
    after { machine { regs with pc := 0xC000, i := 0x1E } [(0x4000, [0x80])] with
      ula := { raster with rasterX := 316, rasterY := 10 } } fun t =>
      videoRow t 315 10 8 == [false, true, true, true, true, false, false, false] && (t.pix.getD 0 []).length == 1 := by
  unfold after; decide +kernel

/-- VA.2. -/
theorem test_line_end_inside_an_instruction :
    after { machine regs [(0x4000, [0x00])] with ula := { raster with hsCounter := 205, rasterX := 410 } } fun t =>
      t.ula.rasterX == 4 && t.ula.rasterY == 1 && t.ula.row == 1 && t.ula.hsCounter == 2 && t.ev.lineBoundary := by
  unfold after; decide +kernel

/-- VA.3, its fiftieth cycle. -/
theorem test_line_end_raises_nmi :
    after { machine { regs with pc := 0x4032 } [] with
      ula := { raster with hsCounter := 203, rasterX := 406, nmiGenOn := true } } fun t =>
      t.ula.nmiPending && t.ula.rasterX == 0 && t.ula.rasterY == 1 && t.cpu.pc == 0x4033 := by
  unfold after; decide +kernel

/-- VA.4, 122 NOPs, the fill from (150, 2). -/
theorem test_short_vertical_pulse_is_no_field :
    after { machine regs [(0x4000, [0xD3, 0xFF])] with
      ula := { raster with vsyncState := true, syncLen := 499, rasterX := 170, rasterY := 2, vsX := 150, vsY := 2 } } fun t =>
      t.ula.rasterX == 192 && t.ula.rasterY == 2 && t.ev.fieldBoundary == false && t.draw == some 0 &&
      videoRow t 149 2 2 == [false, true] && videoRow t 169 2 2 == [true, false] := by
  unfold after; decide +kernel

/-- VA.4, 121 NOPs and C8, the fill from (150, 2). -/
theorem test_vertical_pulse_at_the_threshold :
    after { machine regs [(0x4000, [0xD3, 0xFF])] with
      ula := { raster with vsyncState := true, syncLen := 500, rasterX := 172, rasterY := 2, vsX := 150, vsY := 2 } } fun t =>
      t.ula.rasterX == 194 && t.ula.rasterY == 0 && t.ev.fieldBoundary && t.draw == some 1 && t.pool.cur == some 0 := by
  unfold after; decide +kernel

/-- VB.3, its third cycle. -/
theorem test_acknowledge_pulse_ends_the_line :
    after { machine { regs with pc := 0x003C } [] with
      cfg := variantB, ula := { raster with
        l2 := true, l2Len := 17, l3 := true, syncLen := 17, rasterX := 334, rasterY := 7, row := 2 } } fun t =>
      t.ula.l2 == false && t.ula.rasterX == 2 && t.ula.rasterY == 8 && t.ula.row == 3 := by
  unfold after; decide +kernel

/-- VB.4. -/
theorem test_forced_line_keeps_row :
    after { machine regs [(0x4000, [0x00])] with cfg := variantB, ula := { raster with rasterX := 826, row := 3 } } fun t =>
      t.ula.rasterX == 6 && t.ula.rasterY == 1 && t.ula.row == 3 && t.ev == ⟨true, false, false, true⟩ := by
  unfold after; decide +kernel

/-- VB.5. -/
theorem test_sync_loss_blanks :
    after { machine regs [(0x4000, [0x00])] with
      cfg := variantB, ula := { raster with rasterX := 826, rasterY := 399 } } fun t =>
      t.ula.rasterY == 0 && t.ev.fieldBoundary && t.pool.blanked && t.pool.blankColour == .black := by
  unfold after; decide +kernel

/-! ### Memory, raster, pool and snapshot operations -/

/-- VM.1 to VM.5: mirrors, a discarded write, a word across the end of the ROM mirror, a word at the top. -/
theorem test_memory_map :
    let s := machine regs [(0x0123, [0x5C]), (0xFFFF, [0x34])]
    s.memRead 0x2123 = 0x5C ∧ (s.memWrite 0x4123 0x5A).memRead 0xC123 = 0x5A ∧ s.memWrite 0x8005 0xFF = s ∧
      (s.memWrite16 0x3FFF 0xBEEF).memRead 0x3FFF = 0 ∧ (s.memWrite16 0x3FFF 0xBEEF).memRead 0x4000 = 0xBE ∧
      s.memRead16 0xFFFF = 0x0034 := by
  decide +kernel

/-- VM.6: one RAM page repeats through pages 16 to 31. -/
theorem test_one_page_of_ram :
    (({ State.reset with pt := Config.defaultPages 8 1 false }).memWrite 0x4000 0x77).memRead 0x4400 = 0x77 := by
  decide +kernel

/-- VA.5 and VB.2: `ROW` at an edge, held and not. -/
theorem test_row_at_an_edge :
    (State.reset.setUla { raster with row := 5 } |>.hsyncEdge true).ula.row = 0 ∧
      (State.reset.hsyncEdge false).ula.row = 1 ∧ (State.reset.setUla { raster with row := 7 } |>.hsyncEdge false).ula.row = 0 := by
  decide +kernel

/-- VF.1 to VF.8: the two ends of a fill as linear indices, clipped. -/
theorem test_linear_index :
    linearIndex Config.default 100 50 = 16100 ∧ linearIndex Config.default 20 52 = 16660 ∧
      linearIndex Config.default 400 10 = 3520 ∧ linearIndex Config.default 10 (-5) = 0 ∧
      linearIndex Config.default 0 240 = 76800 ∧ linearIndex Config.default (100 - 40) (50 - 30) = 6460 ∧
      linearIndex Config.default (20 - 40) (52 - 30) = 7040 ∧ linearIndex Config.default 0 300 = 76800 := by
  decide +kernel

/-- VF.6 and the wrap of VF.2 in a buffer of 8 by 4: an empty region, and one past the bottom edge. -/
theorem test_fill_region :
    let c := { Config.default with bufW := 8, bufH := 4, stride := 1 }
    fillRegion c [] 13 13 = [] ∧ fillRegion c [] 28 6 = [(0, 0xFC), (3, 0x0F)] ∧ fillRegion c [] 6 18 = [(0, 0x03), (1, 0xFF), (2, 0xC0)] := by
  decide +kernel

/-- A pool of capacity 4 as at power-on, the handles in the roles given. -/
def pool (free pend : List Nat) (cur prev : Option Nat) (out : List Nat) : Pool :=
  { Pool.powerOn Config.default with free := free, pend := pend, cur := cur, prev := prev, out := out }

/-- P3 and S5: a full queue, progressive: the oldest pending buffer is freed. -/
theorem test_pool_evicts_oldest :
    (pool [3] [0, 1] none none [2]).submit false 2 true true false = some (pool [3, 0] [1, 2] none none []) := by decide

/-- P6, its last line: a full queue, interlaced: both are freed. -/
theorem test_pool_evicts_both_when_interlaced :
    ({ pool [] [2, 0] (some 1) none [3] with interlace := true }).submit false 3 true true false =
      some { pool [2, 0] [3] (some 1) none [] with interlace := true } := by decide

/-- P2 and P7: an immediate submission, its predecessor released or kept. -/
theorem test_pool_immediate :
    (pool [2, 3] [] (some 0) none [1]).submit false 1 false true false = some { pool [2, 3, 0] [] (some 1) none [] with shown := 1 } ∧
      (pool [2, 3] [] (some 0) none [1]).submit false 1 false false false = some { pool [2, 3] [] (some 1) none [0] with shown := 1 } := by
  decide

/-- P4: blank to black frees the pending and the current buffers. -/
theorem test_pool_blank : (pool [3] [1, 2] (some 0) none []).blank true = { pool [3, 1, 2, 0] [] none none [] with blanked := true } := by
  decide

/-- R9, R614, R615: under a table whose one row ends the vertical sync on a read, a write raises nothing and a read ends the pulse. -/
theorem test_port_table_is_a_parameter :
    let s := { State.reset with
      cfg := { Config.default with portDecode := [⟨.read, 0x80, 0, false, .vsyncClear⟩] }
      ula := { raster with vsyncState := true, nmiGenOn := true } };
    (match s.portWriteEvents 0xFC with
      | .next t => t.ula == s.ula
      | _ => false) = true ∧
    (match s.portReadEvents 0x7F with
      | .next t => t.ula == { s.ula with vsyncState := false }
      | _ => false) = true := by
  decide +kernel

/-- R72 (b), R75: after a change from a 4 KB to an 8 KB ROM the whole new image is read-only, whatever map is asked for. -/
theorem test_rom_variant_change :
    let s := { State.reset with cfg := { Config.default with romBytes := 4096 } };
    (match s.changeMemory ⟨16, false, some ⟨8192, some [0x11, 0x22]⟩⟩ (some (Vector.replicate 64 ⟨7168, true⟩)) with
      | .next t => t.pt.toList.all (fun e => !e.writable) && t.phys.read 1 == 0x22 && t.cfg.romBytes == 8192
      | _ => false) = true := by
  decide +kernel

/-- VM.6 through a change of `RAM_SIZE`: the single RAM page repeats. -/
theorem test_ram_size_change :
    (match State.reset.changeMemory ⟨1, false, none⟩ none with
      | .next t => (t.memWrite 0x4000 0x77).memRead 0x4400 == 0x77 && t.cfg.ptInit == t.pt
      | _ => false) = true := by
  decide +kernel

/-- R75: the table of the reset state is the default map of its inputs. -/
theorem test_default_map : defaultMap Config.default = Config.default.ptInit := by decide +kernel

/-- R40, R11: a signed 32-bit raster keeps the low 32 bits of a sum. -/
theorem test_raster_is_32_bits :
    ({ raster with rasterX := 0x7FFFFFFF }.countA Config.default).rasterX.toInt = -(2 ^ 31) + 1 := by decide +kernel

/-- P5: the fall-backs of `acquire_free`. -/
theorem test_pool_fall_backs :
    (pool [] [1, 2] (some 0) (some 3) []).acquireFree = some (3, pool [] [1, 2] (some 0) none [3]) ∧
      (pool [] [1, 2] (some 0) none [3]).acquireFree = some (0, { pool [] [2] (some 1) none [0, 3] with shown := 1 }) ∧
      (pool [] [] (some 0) none [1, 2, 3]).acquireFree = some (0, pool [] [] none none [0, 1, 2, 3]) ∧
      (pool [] [0, 1] none none []).acquireFree = none := by
  decide

/-- P6: `advance_frame` interlaced, its fourth call (a swap) and its seventh (a catch-up). -/
theorem test_pool_advance_interlaced :
    ({ pool [3] [2] (some 1) (some 0) [] with interlace := true, shown := 1, noSkip := true }).advanceFrame =
        { pool [3] [2] (some 0) (some 1) [] with interlace := true, frameParity := true } ∧
      ({ pool [] [3, 1] (some 0) (some 2) [] with interlace := true, frameParity := true }).advanceFrame =
        { pool [2] [1] (some 3) (some 0) [] with interlace := true, shown := 3 } := by
  decide

/-- VS.1: a snapshot of the reset state is zero but for the pulse level. -/
theorem test_snapshot_of_reset : snapBytes State.reset = List.replicate 58 0 ++ [1] ++ List.replicate 43 0 := by decide +kernel

/-- The state of VS.2. -/
def snapState : State :=
  { State.reset with
    cpu := { Cpu.reset with
      a := 0x12, f := 0x34, b := 0x56, c := 0x78, d := 0x9A, e := 0xBC, h := 0xDE, l := 0xF0, a2 := 0xA1, f2 := 0xF1, b2 := 0xB1
      c2 := 0xC1, d2 := 0xD1, e2 := 0xE1, h2 := 0x81, l2 := 0x91, i := 0x1E, iff1 := true, iff2 := true, im := .im1, ix := 0x1122
      iy := 0x4000, sp := 0x43FE, pc := 0x0281, r := 0xDD }
    ts := 64169
    ula := { raster with
      rasterX := 412, rasterY := 309, row := 7, syncLen := 1234, vsX := 100, vsY := 50, hsyncState := false, vsyncState := true
      hsCounter := 206, nmiGenOn := true, nmiPending := true }
    pool := { Pool.powerOn Config.default with blanked := true, blankColour := .white, frameParity := true } }

/-- The first 32 bytes of VS.2, a line of it, and its last line. -/
theorem test_snapshot_bytes :
    (snapBytes snapState).take 32 =
        [0x12, 0x34, 0x56, 0x78, 0x9A, 0xBC, 0xDE, 0xF0, 0xA1, 0xF1, 0xB1, 0xC1, 0xD1, 0xE1, 0x81, 0x91, 0x1E, 0x01, 0x01, 0x01, 0x22,
         0x11, 0x00, 0x40, 0xFE, 0x43, 0x81, 0x02, 0xDD, 0x00, 0xA9, 0xFA] ∧
      ((snapBytes snapState).drop 32).take 16 =
        [0x00, 0x00, 0x9C, 0x01, 0x00, 0x00, 0x35, 0x01, 0x00, 0x00, 0x07, 0x00, 0x00, 0x00, 0xD2, 0x04] ∧
      (snapBytes snapState).drop 96 = [0x00, 0x00, 0x01, 0x01, 0x00, 0x01] := by
  decide +kernel

/-- VS.4: the values a load reduces. -/
theorem test_load_reduces :
    let bytes := ((((snapBytes snapState).set 19 0x07).set 29 0x09).set 30 0xAA).set 42 0x0B |>.set 17 0x02
    let t := snapState.load bytes
    t.cpu.im = .im0 ∧ t.cpu.pfx = .none ∧ t.ts = 0 ∧ t.ula.row = 3 ∧ t.cpu.iff1 = false := by
  decide +kernel

/-! ### Witnesses: what meets the hypotheses of each obligation -/

/-- The invariant as a test. -/
def invariant (s : State) : Bool :=
  Config.parametersOk s.cfg && Config.poolCapOk s.cfg && Config.pagesInside s.cfg s.pt && Config.pagesInside s.cfg s.cfg.ptInit &&
  Config.romProtected s.cfg s.pt && Config.romProtected s.cfg s.cfg.ptInit && s.phys.wf && s.pix.all Memory.wf &&
  s.chroma.all Memory.wf && decide (s.pix.length = s.cfg.poolCap) && decide (s.chroma.length = s.cfg.poolCap) &&
  decide ((handlesInRoles s.pool).Perm (List.range s.cfg.poolCap)) && decide (s.pool.pend.length ≤ Config.maxPend) &&
  decide (s.pool.shown < s.cfg.poolCap) && decide (s.pool.lock = .free) && decide (s.pool.chromaInUse.length = s.cfg.poolCap) &&
  decide (s.pool.out = s.draw.toList) && decide (s.ts < s.cfg.fieldModulus)

theorem inv_of_invariant {s : State} (h : invariant s = true) : Inv s := by
  simp only [invariant, Bool.and_eq_true, decide_eq_true_eq, List.all_eq_true] at h
  obtain ⟨⟨⟨⟨⟨⟨⟨⟨⟨⟨⟨⟨⟨⟨⟨⟨⟨h1, h2⟩, h3⟩, h4⟩, h5⟩, h6⟩, h7⟩, h8⟩, h9⟩, h10⟩, h11⟩, h12⟩, h13⟩, h14⟩, h15⟩, h16⟩, h17⟩, h18⟩ := h
  exact ⟨⟨h1, h2, h3, h4, h5, h6⟩, ⟨h7, h8, h9, h10, h11⟩, ⟨h12, h13, h14, h15, h16⟩, h17, h18⟩

/-- Is the outcome a next state? -/
def isNext (o : Out) : Bool :=
  match o with
  | .next _ => true
  | _ => false

theorem next_of_isNext {o : Out} (h : isNext o = true) : ∃ t, o = .next t := by
  cases o with
  | next t => exact ⟨t, rfl⟩
  | fault r => cases h
  | refused r => cases h

/-- EMU started, `LD HL,0x1234` at `PC`. -/
def running : State := machine regs [(0x4000, [0x21, 0x34, 0x12])]

/-- EMU started with the least capacity that never runs dry, 3. -/
def smallest : State := (State.powerOn { Config.default with poolCap := 3 } []).started

/-- EMU started in variant B. -/
def runningB : State := { running with cfg := variantB }

theorem running_inv : Inv running := inv_of_invariant (by decide +kernel)

theorem smallest_inv : Inv smallest := inv_of_invariant (by decide +kernel)

theorem runningB_inv : Inv runningB := inv_of_invariant (by decide +kernel)

/-- A change outside what the invariant names keeps it. -/
theorem inv_withCpuUla {s : State} (h : Inv s) (c : Cpu) (u : Ula) : Inv { s with cpu := c, ula := u } :=
  { config := { h.config with }, storage := { h.storage with }, pool := h.pool, draw := h.draw, counter := h.counter }

/-- O1: power-on with an image as long as the ROM and a byte of RAM beyond it; the last handle, the last byte of the ROM and the
first after it. -/
theorem witness_ResetsGiveTheirValues :
    let c := { Config.default with romBytes := 2 }
    (∃ s, powerOn c (some [0x11, 0x22]) [(9000, 5)] = .next s) ∧ 3 < c.poolCap ∧ [0x11, 0x22].length = c.romBytes ∧
      1 < c.romBytes ∧ c.romBytes ≤ 2 :=
  ⟨next_of_isNext (by decide +kernel), by decide, by decide, by decide, by decide⟩

/-- What the clauses of O2 ask of the parameters: no parameter wrong, no page outside `PHYS`, no ROM page writable. -/
def rightParameters (c : Config) : Prop :=
  ¬((c.bufW = 0 ∨ c.bufH = 0 ∨ c.stride = 0 ∨ c.lineTs = 0 ∨ c.hsWidth = 0 ∨ c.xPerT = 0 ∨ c.lineMax = 0 ∨ c.fieldMaxLines = 0 ∨
      c.vsyncThreshold = 0 ∨ c.hsWidthB = 0 ∨ c.fieldModulus = 0) ∨
    c.lineTs ≤ c.hsOffset ∨ c.lineTs ≤ c.hsWidth ∨ c.fieldModulus ≤ 23 ∨ 8 * c.stride < c.bufW)

/-- See `rightParameters`. -/
def pagesOutside (c : Config) : Prop := ∃ e ∈ c.ptInit.toList, c.physBytes < e.base + 1024

/-- See `rightParameters`. -/
def writableRomPage (c : Config) : Prop := ∃ e ∈ c.ptInit.toList, e.base < c.romBytes ∧ e.writable = true

/-- O2: capacities 0 and 5; each parameter constraint failing alone, at its boundary, and just met; a page one byte outside; a
writable ROM page; the defaults, without and with an image; nothing to acquire. -/
theorem witness_PowerOnChecksItsParameters :
    (∀ n ∈ [0, 5], ¬(1 ≤ n ∧ n ≤ 4) ∧ rightParameters { Config.default with poolCap := n } ∧
      ¬pagesOutside { Config.default with poolCap := n } ∧ ¬writableRomPage { Config.default with poolCap := n }) ∧
    (∀ c ∈ [{ Config.default with poolCap := 1, stride := 0 }, { Config.default with hsOffset := 207 },
        { Config.default with hsWidth := 207 }, { Config.default with fieldModulus := 23 }, { Config.default with stride := 39 }],
      (1 ≤ c.poolCap ∧ c.poolCap ≤ 4) ∧ ¬rightParameters c ∧ ¬pagesOutside c ∧ ¬writableRomPage c) ∧
    (let c := { Config.default with hsOffset := 206, hsWidth := 206, fieldModulus := 24, physBytes := 24575 };
      (1 ≤ c.poolCap ∧ c.poolCap ≤ 4) ∧ rightParameters c ∧ pagesOutside c) ∧
    (let c := { Config.default with romBytes := 8193 };
      (1 ≤ c.poolCap ∧ c.poolCap ≤ 4) ∧ rightParameters c ∧ writableRomPage c) ∧
    (let c := { Config.default with physBytes := 24576 };
      (1 ≤ c.poolCap ∧ c.poolCap ≤ 4) ∧ rightParameters c ∧ ¬pagesOutside c ∧ ¬writableRomPage c) ∧
    (some [0x11] : Option (List Byte)).isSome ∧
    (let s := { State.reset with pool := pool [] [0, 1] none none [] };
      s.pool.lock = .free ∧ s.renBetween = [] ∧ s.pool.free = [] ∧ s.pool.prev = none ∧ s.pool.cur = none) := by
  unfold rightParameters pagesOutside writableRomPage
  refine ⟨?_, ?_, ?_, ?_, ?_, rfl, by decide⟩ <;> decide +kernel

/-- O4: a step of an instruction, of an interrupt entry, of HOST, and of the start, each from a well-formed state. -/
theorem witness_EveryStepKeepsInvariant :
    (Inv running ∧ ∃ t, step running = .next t) ∧
    (let s := { running with ula := { raster with nmiPending := true } };
      Inv s ∧ ∃ t, step s = .next t) ∧
    (let s := { running with agenda := [.host .machineReset] };
      Inv s ∧ ∃ t, step s = .next t) ∧
    (let s := { State.reset with pool := { State.reset.pool with renderReady := true } };
      Inv s ∧ ∃ t, step s = .next t) :=
  ⟨⟨running_inv, next_of_isNext (by decide +kernel)⟩,
    ⟨inv_of_invariant (by decide +kernel), next_of_isNext (by decide +kernel)⟩,
    ⟨inv_of_invariant (by decide +kernel), next_of_isNext (by decide +kernel)⟩,
    ⟨inv_of_invariant (by decide +kernel), next_of_isNext (by decide +kernel)⟩⟩

/-- O5: the least capacity. -/
theorem witness_StepNeverStops :
    Inv smallest ∧ 3 ≤ smallest.cfg.poolCap ∧ smallest.agenda = [] ∧ ∃ a : Word, smallest.memRead a ≠ 0xDD ∧ smallest.memRead a ≠ 0xFD :=
  ⟨smallest_inv, by decide, by decide +kernel, 0xFFFF, by decide +kernel⟩

/-- Every page is one RAM page, filled with 0xDD. -/
def prefixesOnly : State :=
  { running with
    pt := Vector.replicate 64 ⟨8192, true⟩
    phys := (List.range' 8192 1024).map fun k => (k, 0xDD) }

/-- A storage whose entries from `b` on all hold `v`. -/
theorem read_filled (v : Byte) (n b a : Nat) (h : b ≤ a) (k : a < b + n) :
    Memory.read ((List.range' b n).map fun j => (j, v)) a = v := by
  induction n generalizing b with
  | zero => omega
  | succ n ih =>
    rw [List.range'_succ, List.map_cons, Memory.read]
    split
    · rfl
    · exact ih (b + 1) (by omega) (by omega)

theorem prefixesOnly_read (a : Word) : prefixesOnly.memRead a = 0xDD := by
  have h : prefixesOnly.physAddr a = 8192 + pageOffset a := by simp [State.physAddr, State.entry, prefixesOnly]
  have := (a.extractLsb' 0 10).isLt
  unfold State.memRead
  rw [h]
  exact read_filled 0xDD 1024 8192 _ (by omega) (by simp only [pageOffset]; omega)

theorem runInstr_endless {s : State} (h : OnlyIndexPrefixes s) : s.runInstr = .fault .endlessPrefixChain := by
  have hd : decode s.bytesAtPc = _ := decode_two_index_prefixes _ _ (s.memRead (s.cpu.pc + 2)) (s.memRead (s.cpu.pc + 3))
    (h s.cpu.pc) (h (s.cpu.pc + 1))
  have hf : OnlyIndexPrefixes (s.fetchedInstr 1) := fun a => by
    rw [show (s.fetchedInstr 1).memRead a = (s.fetched 1 (m1Fetches s.bytesAtPc 1)).memRead a from rfl, memRead_fetched]
    exact h a
  unfold State.runInstr
  rw [hd]
  dsimp only
  rw [exec_eq_rowMeaning, ← runAfterPrefix, runAfterPrefix_endless _ _ _ (by split <;> simp) hf]
  rfl

theorem stepCpu_instr {s : State} (hn : s.ula.nmiPending = false) (hi : s.intSample = false) (hv : s.atVideoByte = false) :
    s.stepCpu = s.beginInstr.runInstr := by
  simp only [State.stepCpu, State.stepInstr, hn, hi, hv, Bool.false_eq_true, if_false]

theorem step_emuCycle {s : State} (ha : s.agenda = []) (hd : s.draw = some 0) :
    step s = andThen s.beginCycle.stepCpu State.endCycle := by
  unfold step
  rw [ha, hd]
  rfl

theorem onlyIndexPrefixes_begin {s : State} (h : OnlyIndexPrefixes s) : OnlyIndexPrefixes s.beginCycle.beginInstr := fun a => h a

theorem prefixesOnly_step : step prefixesOnly = .fault .endlessPrefixChain := by
  rw [step_emuCycle (by decide +kernel) (by decide +kernel), stepCpu_instr (by decide +kernel) (by decide +kernel) (by decide +kernel),
    runInstr_endless (onlyIndexPrefixes_begin fun a => .inl (prefixesOnly_read a))]
  rfl

/-- O6: both clauses, at a memory that is one page of prefixes. -/
theorem witness_EndlessPrefixChainIsStuck :
    (prefixesOnly.agenda = [] ∧ prefixesOnly.draw.isSome ∧ prefixesOnly.ula.nmiPending = false ∧ prefixesOnly.intSample = false ∧
      ∀ a : Word, prefixesOnly.memRead a = 0xDD ∨ prefixesOnly.memRead a = 0xFD) ∧
    (Inv prefixesOnly ∧ 3 ≤ prefixesOnly.cfg.poolCap ∧ prefixesOnly.agenda = [] ∧ step prefixesOnly = .fault .endlessPrefixChain) :=
  ⟨⟨by decide +kernel, by decide +kernel, by decide +kernel, by decide +kernel, fun a => .inl (prefixesOnly_read a)⟩,
    inv_of_invariant (by decide +kernel), by decide, by decide +kernel, prefixesOnly_step⟩

/-- `running` with a 4 KB ROM. -/
def runningFourK : State := { running with cfg := { Config.default with romBytes := 4096 } }

/-- O7: a rebuild that asks for a writable ROM page; a change from a 4 KB to an 8 KB ROM with a map of the board's own, whose page at
4096 the old ROM would have left writable, and with the default map, with and without a new ROM; a step, and the first and the last
byte of the ROM image. -/
theorem witness_RomNeverChanges :
    (∃ t, running.rebuildPages (Vector.replicate 64 ⟨0, true⟩) = .next t) ∧
    (∃ t, runningFourK.changeMemory ⟨16, true, some ⟨8192, some [0x11]⟩⟩ (some (Vector.replicate 64 ⟨4096, true⟩)) = .next t) ∧
    (∃ t, runningFourK.changeMemory ⟨1, true, some ⟨8192, some [0x11]⟩⟩ none = .next t) ∧
    (∃ t, runningFourK.changeMemory ⟨16, false, none⟩ none = .next t) ∧ 32768 ≤ runningFourK.cfg.physBytes ∧
    runningFourK.cfg.romBytes = 4096 ∧ Inv running ∧ (∃ t, running.stepCpu = .next t) ∧
      ∀ a : Word, (running.entry a).writable = true → running.physAddr a ≠ 0 ∧ running.physAddr a ≠ 8191 := by
  refine ⟨next_of_isNext (by decide +kernel), next_of_isNext (by decide +kernel), next_of_isNext (by decide +kernel),
    next_of_isNext (by decide +kernel), by decide, by decide +kernel, running_inv, next_of_isNext (by decide +kernel), fun a ha => ?_⟩
  have key : ∀ p : Fin 64, running.pt[p].writable = true → 8192 ≤ running.pt[p].base := by decide +kernel
  have := key (pageOf a) ha
  have hp : running.physAddr a = running.pt[pageOf a].base + pageOffset a := rfl
  omega

/-- O8: a plain instruction with bytes after it, and a prefix row with none. -/
theorem witness_DecodeEncodeRoundTrip :
    ((Instr.ldPairNn .hl 0xFFFF).wf = true ∧ (Instr.ldPairNn .hl 0xFFFF).isPrefixRow = false) ∧
      ((Instr.indexPrefixNoEffect .iy 0xED).wf = true ∧ (Instr.indexPrefixNoEffect .iy 0xED).isPrefixRow = true) := by decide

/-- O9: four bytes. -/
theorem witness_EveryByteSequenceDecodes : 4 ≤ ([0xED, 0xFF, 0x00, 0x00] : List Byte).length := by decide

/-- O11: an unprefixed and a prefixed instruction, the second over the end of the address space. -/
theorem witness_StepRunsDecodedInstruction :
    (running.agenda = [] ∧ running.draw.isSome ∧ running.ula.nmiPending = false ∧ running.intSample = false ∧
      running.atVideoByte = false ∧
      decode [running.memRead 0x4000, running.memRead 0x4001, running.memRead 0x4002, running.memRead 0x4003] =
        .ok (.ldPairNn .hl 0x1234, 3)) ∧
    (let s := machine { regs with pc := 0xFFFE } [(0xFFFE, [0xDD, 0x7E, 0x05])];
      s.agenda = [] ∧ s.draw.isSome ∧ s.ula.nmiPending = false ∧ s.intSample = false ∧ s.atVideoByte = false ∧
        decode [s.memRead 0xFFFE, s.memRead 0xFFFF, s.memRead 0x0000, s.memRead 0x0001] = .ok (.ldRAtIdx .ix .a 0x05, 3)) := by
  decide +kernel

/-- O12: a length of one. -/
theorem witness_RefreshCounterKeepsBitSeven : 1 ≤ 1 := Nat.le_refl 1

/-- O13: a video byte at the lowest address without and with `M1NOT`, and the last pixel of the buffer. -/
theorem witness_VideoByteStep :
    (let s := machine { regs with pc := 0x8000 } [(0x0000, [0xBF])];
      Inv s ∧ s.draw = some 0 ∧ s.ula.nmiPending = false ∧ s.intSample = false ∧ s.cfg.udg = false ∧ s.cfg.colour = false ∧
        0xBF = s.memRead s.cpu.pc ∧ (0xBF : Byte).getLsbD 6 = false ∧ (if s.cfg.m1not then 0xC000 else 0x8000) ≤ s.cpu.pc.toNat) ∧
    (let s := { machine { regs with pc := 0xC000 } [(0x4000, [0x00])] with cfg := { Config.default with m1not := true } };
      Inv s ∧ s.draw = some 0 ∧ s.ula.nmiPending = false ∧ s.intSample = false ∧ s.cfg.udg = false ∧ s.cfg.colour = false ∧
        0x00 = s.memRead s.cpu.pc ∧ (0x00 : Byte).getLsbD 6 = false ∧ (if s.cfg.m1not then 0xC000 else 0x8000) ≤ s.cpu.pc.toNat) ∧
    319 < Config.default.bufW ∧ 239 < Config.default.bufH := by
  refine ⟨⟨inv_of_invariant (by decide +kernel), ?_⟩, ⟨inv_of_invariant (by decide +kernel), ?_⟩, ?_⟩ <;> decide +kernel

/-- O14: a pending request, with the processor running and halted. -/
theorem witness_NmiEntryTaken :
    { running with ula := { raster with nmiPending := true } }.ula.nmiPending = true ∧
      (let s := machine { regs with halted := true } [];
        { s with ula := { raster with nmiPending := true } }.ula.nmiPending = true) := by
  decide

/-- O15: the sample at `R = 1`, in both variants and in modes 0, 1 and 2. -/
theorem witness_MaskableInterruptEntered :
    ∀ c ∈ [Config.default, variantB], ∀ m ∈ [IntMode.im0, .im1, .im2],
      let s := { machine { regs with iff1 := true, r := 1, im := m } [] with cfg := c }
      s.ula.nmiPending = false ∧ s.intSample = true := by
  decide +kernel

/-- O16: a page that is not writable. -/
theorem witness_MemoryReadAfterWrite :
    (running.pt[(0x3FFF : Word).toNat / 1024]'(by decide)).writable = false := by decide +kernel

/-- O18: two registers. -/
theorem witness_LoadByteIntoRegister : Reg8.h ≠ Reg8.l := by decide

/-- O22: the two bytes under `SP = 0x4400` are writable and differ. -/
theorem witness_PushAndPop :
    (running.entry (running.cpu.sp - 1)).writable = true ∧ (running.entry (running.cpu.sp - 2)).writable = true ∧
      running.physAddr (running.cpu.sp - 1) ≠ running.physAddr (running.cpu.sp - 2) := by
  decide +kernel

/-- The five operand forms of an accumulator operation. -/
theorem accForm_each (onR : Reg8 → Instr) (onN : Byte → Instr) (onHl : Instr) (onIdx : Idx → Byte → Instr)
    (onHalf : Idx → Half → Instr) (s : State) :
    AccForm onR onN onHl onIdx onHalf s (onR .a) (s.cpu.reg .a) 4 ∧ AccForm onR onN onHl onIdx onHalf s (onN 0xFF) 0xFF 7 ∧
    AccForm onR onN onHl onIdx onHalf s onHl (s.memRead (s.cpu.h ++ s.cpu.l)) 7 ∧
    AccForm onR onN onHl onIdx onHalf s (onIdx .ix 0x80) (s.memRead (s.cpu.idx .ix + (0x80 : Byte).signExtend 16)) 19 ∧
    AccForm onR onN onHl onIdx onHalf s (onHalf .iy .low) (s.cpu.half .iy .low) 8 :=
  ⟨.inl ⟨.a, rfl, rfl, rfl⟩, .inr (.inl ⟨0xFF, rfl, rfl, rfl⟩), .inr (.inr (.inl ⟨rfl, rfl, rfl⟩)),
    .inr (.inr (.inr (.inl ⟨.ix, 0x80, rfl, rfl, rfl⟩))), .inr (.inr (.inr (.inr ⟨.iy, .low, rfl, rfl, rfl⟩)))⟩

/-- O26: `ADD A,A` and `ADC A,0xFF`. -/
theorem witness_AdditionToAccumulator :
    AccForm .addAR .addAN .addAAtHl .addAAtIdx .addAHalf running (.addAR .a) (running.cpu.reg .a) 4 ∧
      AccForm .adcAR .adcAN .adcAAtHl .adcAAtIdx .adcAHalf running (.adcAN 0xFF) 0xFF 7 :=
  ⟨(accForm_each _ _ _ _ _ _).1, (accForm_each _ _ _ _ _ _).2.1⟩

/-- O27: `SUB A`, `SBC A,(HL)` and `CP IYL`. -/
theorem witness_SubtractionAndComparison :
    AccForm .subR .subN .subAtHl .subAtIdx .subHalf running (.subR .a) (running.cpu.reg .a) 4 ∧
      AccForm .sbcAR .sbcAN .sbcAAtHl .sbcAAtIdx .sbcAHalf running .sbcAAtHl (running.memRead (running.cpu.h ++ running.cpu.l)) 7 ∧
      AccForm .cpR .cpN .cpAtHl .cpAtIdx .cpHalf running (.cpHalf .iy .low) (running.cpu.half .iy .low) 8 :=
  ⟨(accForm_each _ _ _ _ _ _).1, (accForm_each _ _ _ _ _ _).2.2.1, (accForm_each _ _ _ _ _ _).2.2.2.2⟩

/-- O28: `AND A`, `XOR 0xFF` and `OR (IX-128)`. -/
theorem witness_LogicOnAccumulator :
    AccForm .andR .andN .andAtHl .andAtIdx .andHalf running (.andR .a) (running.cpu.reg .a) 4 ∧
      AccForm .xorR .xorN .xorAtHl .xorAtIdx .xorHalf running (.xorN 0xFF) 0xFF 7 ∧
      AccForm .orR .orN .orAtHl .orAtIdx .orHalf running (.orAtIdx .ix 0x80)
        (running.memRead (running.cpu.idx .ix + (0x80 : Byte).signExtend 16)) 19 :=
  ⟨(accForm_each _ _ _ _ _ _).1, (accForm_each _ _ _ _ _ _).2.1, (accForm_each _ _ _ _ _ _).2.2.2.1⟩

/-- O31: the two ends of the packed decimals. -/
theorem witness_DecimalAdjust :
    (0 < 100 ∧ 0 < 100 ∧ running.cpu.a = (BitVec.ofNat 8 (0 / 10 * 16 + 0 % 10) : Byte)) ∧
      (99 < 100 ∧ 99 < 100 ∧
        { regs with a := 0x99 }.a = (BitVec.ofNat 8 (99 / 10 * 16 + 99 % 10) : Byte)) := by
  decide +kernel

/-- O32: flags that `NEG` leaves for 0x80 and for 0. -/
theorem witness_ComplementNegateAndCarry : SubFlags 0 0x80 false 0x87 ∧ SubFlags 0 0 false 0x42 := by
  unfold SubFlags FlagsAre
  decide +kernel

/-- O40: the last bit. -/
theorem witness_SetAndResetBit : 7 < 8 := by decide

/-- O41: a register that is neither `H` nor `L`. -/
theorem witness_IndexHalfLoads : Reg8.a ≠ .h ∧ Reg8.a ≠ .l := by decide

/-- O42: every condition true in one state and false in another; `B` 1 and not 1. -/
theorem witness_Jumps :
    let z : Cpu := { regs with f := 0xFF, b := 1 }
    let n : Cpu := { regs with f := 0x00, b := 0 }
    (∀ k ∈ [0, 2, 6, 7], z.f.getLsbD k = true ∧ n.f.getLsbD k = false) ∧ z.b = 1 ∧ n.b ≠ 1 := by
  decide

/-- O43: every condition true in one state and false in another. -/
theorem witness_CallsAndReturns :
    let z : Cpu := { regs with f := 0xFF }
    let n : Cpu := { regs with f := 0x00 }
    (∀ cc ∈ [Cond.z, .c, .pe, .m], z.holds cc = true ∧ n.holds cc = false) ∧
      ∀ cc ∈ [Cond.nz, .nc, .po, .p], z.holds cc = false ∧ n.holds cc = true := by
  decide

/-- A table of port rows that is not the default: any read of a port with bit 7 clear ends the vertical sync. -/
def otherPorts : List PortRule := [⟨.read, 0x80, 0, false, .vsyncClear⟩]

/-- `running` under that table. -/
def runningOther : State := { running with cfg := { Config.default with portDecode := otherPorts } }

/-- O44: the default table with a capacity of 1, and another table in a well-formed state. -/
theorem witness_InputInstructions :
    (State.powerOn { Config.default with poolCap := 1 } []).cfg.portDecode = Config.defaultPorts ∧ Inv runningOther ∧
      3 ≤ runningOther.cfg.poolCap ∧ runningOther.cfg.portDecode ≠ Config.defaultPorts :=
  ⟨rfl, inv_of_invariant (by decide +kernel), by decide, by decide +kernel⟩

/-- O45: the least capacity; both variants; the vertical sync off and on; the default table and another. -/
theorem witness_OutputInstructions :
    (Inv smallest ∧ 3 ≤ smallest.cfg.poolCap ∧ smallest.cfg.portDecode = Config.defaultPorts ∧ smallest.cfg.machine = .nmiVariant ∧
      smallest.ula.vsyncState = false) ∧
      (Inv runningB ∧ 3 ≤ runningB.cfg.poolCap ∧ runningB.cfg.portDecode = Config.defaultPorts ∧ runningB.cfg.machine = .ffVariant) ∧
      (let s := { running with ula := { raster with vsyncState := true } };
        Inv s ∧ 3 ≤ s.cfg.poolCap ∧ s.cfg.portDecode = Config.defaultPorts ∧ s.cfg.machine = .nmiVariant ∧ s.ula.vsyncState = true) ∧
      (Inv runningOther ∧ 3 ≤ runningOther.cfg.poolCap) :=
  ⟨⟨smallest_inv, by decide, by decide +kernel, by decide +kernel, by decide +kernel⟩,
    ⟨runningB_inv, by decide, by decide +kernel, by decide⟩,
    ⟨inv_of_invariant (by decide +kernel), by decide, by decide +kernel, by decide +kernel, by decide⟩,
    inv_of_invariant (by decide +kernel), by decide⟩

/-- O46: bytes at `PC` for each clause; for the chain, two and three further index prefixes and an address that holds none. -/
theorem witness_PrefixRowsRunWhatFollows :
    let s := fun code => machine regs [(0x4000, code)]
    (∀ code ∈ [[0x11], [0x21, 0x34, 0x12], [0xFD, 0x21], [0xDD, 0xFD, 0x21], [0xFD, 0xDD, 0xDD, 0x21]],
      Inv (s code) ∧ 3 ≤ (s code).cfg.poolCap) ∧
    decode (0xCB :: (s [0x11]).bytesAtPc) = .ok (.rlR .c, 2) ∧ decode (0xED :: (s [0x11]).bytesAtPc) = .ok (.nopEdUndefined 0x11, 2) ∧
    decode (indexByte .ix :: 0xCB :: (s [0x11]).bytesAtPc) = .ok (.rlcAtIdxR .ix 0x11 .b, 4) ∧
    ((s [0x21, 0x34, 0x12]).memRead 0x4000 ≠ 0xDD ∧ (s [0x21, 0x34, 0x12]).memRead 0x4000 ≠ 0xFD ∧
      decode (indexByte .iy :: (s [0x21, 0x34, 0x12]).bytesAtPc) = .ok (.ldIdxNn .iy 0x1234, 4)) ∧
    ((s [0xFD, 0x21]).memRead 0x4000 = 0xFD ∧ decode (s [0xFD, 0x21]).bytesAtPc = .ok (.ldIdxNn .iy 0, 4)) ∧
    ((s [0xDD, 0xFD, 0x21]).memRead 0x4000 = 0xDD ∧ decode (s [0xDD, 0xFD, 0x21]).bytesAtPc = .ok (.prefixDd, 1) ∧
      (s [0xDD, 0xFD, 0x21]).memRead 0x4002 ≠ 0xDD ∧ (s [0xDD, 0xFD, 0x21]).memRead 0x4002 ≠ 0xFD) ∧
    ((s [0xFD, 0xDD, 0xDD, 0x21]).memRead 0x4000 = 0xFD ∧ decode (s [0xFD, 0xDD, 0xDD, 0x21]).bytesAtPc = .ok (.prefixFd, 1) ∧
      (s [0xFD, 0xDD, 0xDD, 0x21]).memRead 0x4003 ≠ 0xDD ∧ (s [0xFD, 0xDD, 0xDD, 0x21]).memRead 0x4003 ≠ 0xFD) ∧
    ((Instr.indexPrefixNoEffect .ix 0x00).wf = true ∧ decode (0x00 :: (s [0x11]).bytesAtPc) = .ok (.nop, 1)) ∧
    ((Instr.indexPrefixNoEffect .iy 0xED).wf = true ∧
      decode (0xED :: (s [0x21, 0x34, 0x12]).bytesAtPc) = .ok (.nopEdUndefined 0x21, 2)) := by
  refine ⟨?_, by decide +kernel⟩
  intro code hc
  refine ⟨inv_of_invariant ?_, ?_⟩ <;> revert code <;> decide +kernel

/-- O47: a store, whose frame leaves a register, `PC` and a byte; a jump, which may move `PC`; and an output. -/
theorem witness_InstructionFrame :
    ((Instr.ldAtHlR .a).isPrefixRow = false ∧ (Instr.ldAtHlR .a).isPort = false ∧
      RegName.b ∉ (touch (.ldAtHlR .a) running).regs ∧ RegName.pc ∉ (touch (.ldAtHlR .a) running).regs ∧
      RegName.pc ∈ (touch (.jr 0) running).regs ∧ (touch (.ldAtHlR .a) running).stores = [0x0000] ∧
      running.physAddr 0x0000 ≠ 8192) ∧
    ((Instr.outNA 0).isPrefixRow = false ∧ (Instr.outNA 0).isPort = true ∧ Inv smallest ∧ 3 ≤ smallest.cfg.poolCap) :=
  ⟨⟨by decide, by decide, by decide +kernel, by decide +kernel, by decide +kernel, by decide +kernel, by decide +kernel⟩,
    by decide, by decide, smallest_inv, by decide⟩

/-- O49: the default latches with no falling edge, and with one after 499 and after 500 T-states; other latches. -/
theorem witness_TickOfVariantB :
    (Inv runningB ∧ 3 ≤ runningB.cfg.poolCap ∧ runningB.cfg.latch = .standard ∧ runningB.ula.l3 = false) ∧
    (let s := { runningB with ula := { raster with l3 := true, syncLen := 499 } };
      Inv s ∧ 3 ≤ s.cfg.poolCap ∧ s.ula.l1 = false ∧ s.ula.l2 = false ∧ s.ula.l3 = true ∧ ¬s.cfg.vsyncThreshold ≤ s.ula.syncLen.toNat) ∧
    (let s := { runningB with ula := { raster with l3 := true, syncLen := 500 } };
      Inv s ∧ 3 ≤ s.cfg.poolCap ∧ s.ula.l1 = false ∧ s.ula.l2 = false ∧ s.ula.l3 = true ∧ s.cfg.vsyncThreshold ≤ s.ula.syncLen.toNat) ∧
    (let s := { runningB with cfg := { variantB with latch := .other } };
      Inv s ∧ 3 ≤ s.cfg.poolCap ∧ s.cfg.latch ≠ .standard) :=
  ⟨⟨runningB_inv, by decide, by decide, by decide +kernel⟩, ⟨inv_withCpuUla runningB_inv _ _, by decide⟩,
    ⟨inv_withCpuUla runningB_inv _ _, by decide⟩, inv_of_invariant (by decide +kernel), by decide, by decide⟩

/-- O50: the pulse off; on for 499 and for 500 T-states. -/
theorem witness_VerticalSyncPulseOfVariantA :
    running.ula.vsyncState = false ∧
    (let s := { running with ula := { raster with vsyncState := true, syncLen := 499 } };
      Inv s ∧ 3 ≤ s.cfg.poolCap ∧ s.ula.vsyncState = true ∧ s.ula.syncLen.toNat < s.cfg.vsyncThreshold) ∧
    (let s := { running with ula := { raster with vsyncState := true, syncLen := 500 } };
      Inv s ∧ 3 ≤ s.cfg.poolCap ∧ s.ula.vsyncState = true ∧ s.cfg.vsyncThreshold ≤ s.ula.syncLen.toNat) :=
  ⟨by decide +kernel, ⟨inv_withCpuUla running_inv _ _, by decide⟩, ⟨inv_withCpuUla running_inv _ _, by decide⟩⟩

/-- O51: a RasterX and a RasterY below, at and above their limits; a well-formed state with REN taking no turn; the last position of the
last line, a T-state and a cycle of either variant, and an advance without a horizontal edge. -/
theorem witness_RasterStaysInBounds :
    (let s := fun x y => { running with ula := { raster with rasterX := x, rasterY := y } };
      ((s 827 399).ula.rasterX.toInt < (s 827 399).cfg.lineMax ∧ (s 827 399).ula.rasterY.toInt < (s 827 399).cfg.fieldMaxLines) ∧
        ((s 827 400).cfg.fieldMaxLines : Int) ≤ (s 827 400).ula.rasterY.toInt ∧
        ((s 828 398).cfg.lineMax : Int) ≤ (s 828 398).ula.rasterX.toInt ∧
        ((s 828 398).ula.rasterY + 1).toInt < (s 828 398).cfg.fieldMaxLines ∧
        ((s 0x7FFFFFFF 399).cfg.fieldMaxLines : Int) ≤ ((s 0x7FFFFFFF 399).ula.rasterY + 1).toInt) ∧
    (Inv running ∧ running.renBetween = []) ∧ RasterFits Config.default ∧
    (let s := { running with ula := { raster with rasterX := 827, rasterY := 399 } };
      Inv s ∧ RasterFits s.cfg ∧ RasterInBounds s ∧ (∃ t, s.tick = .next t) ∧ (∃ t, s.emuCycle = .next t) ∧ ∃ t, s.stepCpu = .next t) ∧
    (let s := { runningB with ula := { raster with rasterX := 827, rasterY := 399 } };
      Inv s ∧ RasterFits s.cfg ∧ RasterInBounds s ∧ (∃ t, s.tickB = .next t) ∧ ∃ t, s.emuCycle = .next t) ∧
    (running.ev.rowStale = false ∧
      (match running.syncAdvance 16 with
        | .next t => t.ev.rowStale == false
        | _ => false) = true) :=
  ⟨by decide +kernel, ⟨running_inv, by decide +kernel⟩, by unfold RasterFits; decide +kernel,
    ⟨inv_withCpuUla running_inv _ _, by unfold RasterFits; decide +kernel, by unfold RasterInBounds; decide,
      next_of_isNext (by decide +kernel), next_of_isNext (by decide +kernel), next_of_isNext (by decide +kernel)⟩,
    ⟨inv_withCpuUla runningB_inv _ _, by unfold RasterFits; decide +kernel, by unfold RasterInBounds; decide,
      next_of_isNext (by decide +kernel), next_of_isNext (by decide +kernel)⟩,
    by decide +kernel⟩

/-- O52: from zero; an advance that just does not wrap, one that just does, and the longest that wraps once. -/
theorem witness_CycleCounterWrapsExactly :
    (running.ts = 0 ∧ running.frames = 0 ∧ 0 < running.cfg.fieldModulus) ∧ running.ts + 64169 < running.cfg.fieldModulus ∧
      (running.cfg.fieldModulus ≤ running.ts + 64170 ∧ running.ts + 64170 < 2 * running.cfg.fieldModulus) ∧
      (running.cfg.fieldModulus ≤ running.ts + 128339 ∧ running.ts + 128339 < 2 * running.cfg.fieldModulus) := by
  decide +kernel

/-- O53: no draw buffer; a draw buffer, and its last pixel. -/
theorem witness_FloodFillRegion :
    State.reset.draw = none ∧ Inv running ∧ running.draw = some 0 ∧ 319 < running.cfg.bufW ∧ 239 < running.cfg.bufH :=
  ⟨rfl, running_inv, by decide +kernel, by decide, by decide⟩

/-- O54: the least capacity, with a draw buffer. -/
theorem witness_FieldHandOffGivesClearBuffer :
    Inv smallest ∧ 3 ≤ smallest.cfg.poolCap ∧ smallest.draw = some 0 ∧ smallest.renBetween = [] :=
  ⟨smallest_inv, by decide, by decide +kernel, by decide +kernel⟩

/-- O55: a full queue, and a sequence with every operation. -/
theorem witness_PoolRolesStayDisjoint :
    let p := pool [3] [0, 1] none none [2]
    OneRoleEach 4 p ∧ p.pend.length ≤ 2 ∧
      (callsPool true [.submit 2 true true true, .current, .acquire, .submit 3 false false false, .advance, .blank true] p).isSome := by
  unfold OneRoleEach
  decide

/-- O56: the roles in every case, for the least capacity too. -/
theorem witness_BufferIsAcquiredAndSubmitted :
    ((pool [3] [] none none []).free = 3 :: [] ∧ (pool [] [] none (some 3) []).prev = some 3 ∧
      (pool [] [1, 2] (some 0) none [3]).pend = 1 :: [2] ∧ (pool [] [] (some 0) none [1, 2, 3]).pend = [] ∧
      (pool [] [0, 1] none none []).cur = none) ∧
    (OneRoleEach 3 (pool [] [1, 2] (some 0) none []) ∧ (pool [] [1, 2] (some 0) none []).pend.length ≤ 2 ∧
      (pool [] [1, 2] (some 0) none []).out = []) ∧
    (1 ∉ (pool [3] [0, 1] none none [2]).out ∧ 2 ∈ (pool [3] [0, 1] none none [2]).out ∧
      (pool [3] [0, 1] none none [2]).blanked = false ∧ (pool [3] [0, 1] none none [2]).pend = [0, 1] ∧
      (pool [3] [0, 1] none none [2]).interlace = false ∧
      { pool [3] [0, 1] none none [2] with interlace := true }.interlace = true) ∧
    (2 ∈ (pool [0, 3] [1] none none [2]).out ∧ (pool [0, 3] [1] none none [2]).pend.length ≠ 2 ∧
      (pool [0, 3] [1] none none [2]).cur = none ∧ (pool [3] [1] (some 0) none [2]).cur = some 0) := by
  unfold OneRoleEach
  decide

/-- O57: queues of no, one and two entries, progressive and interlaced. -/
theorem witness_DisplayedBufferIsChosen :
    State.reset.pool.lock = .free ∧
    (∀ i ∈ [false, true],
      ({ pool [3] [] (some 0) (some 1) [2] with interlace := i }).pend = [] ∧
      ({ pool [] [3] (some 0) (some 1) [2] with interlace := i }).pend = 3 :: [] ∧
      ({ pool [] [3, 2] (some 0) (some 1) [] with interlace := i }).pend.length = 2 ∧
      ({ pool [] [3] (some 0) (some 1) [2] with interlace := i }).pend.length = 1 ∧
      ({ pool [] [3] (some 0) (some 1) [2] with interlace := i }).noSkip = false ∧
      ({ pool [] [3] (some 0) (some 1) [2] with interlace := i, noSkip := true }).noSkip = true ∧
      ({ pool [1] [3] (some 0) none [2] with interlace := i }).prev = none) := by
  decide +kernel

/-- O58: the counters at the end of 32 bits, a negative and a positive raster value. -/
theorem witness_SnapshotLayout :
    let s := { running with
      ts := 2 ^ 32 - 1
      ula := { raster with hsCounter := 2 ^ 32 - 1, rasterX := 0x80000000, rasterY := 0x7FFFFFFF } }
    s.ts < 2 ^ 32 ∧ s.ula.hsCounter < 2 ^ 32 ∧ s.ula.rasterX.toInt = -(2 ^ 31) ∧ s.ula.rasterY.toInt = 2 ^ 31 - 1 := by
  decide +kernel

/-- O59: a state between steps with the counters at the ends of their ranges; sources of 101 and of 102 bytes. -/
theorem witness_SnapshotRoundTrip :
    (let s := { running with
        ts := 64169
        ula := { raster with hsCounter := 2 ^ 32 - 1, rasterX := 0x80000000, rasterY := 0x7FFFFFFF } };
      s.cpu.pfx = .none ∧ s.ts < s.cfg.fieldModulus ∧ s.cfg.fieldModulus ≤ 2 ^ 32 ∧ s.ula.hsCounter < 2 ^ 32 ∧
        s.ula.intGen = intGenOf s.cfg s.ula.syncFields) ∧
    (List.replicate 101 (0 : Byte)).length < 102 ∧ 102 ≤ (List.replicate 102 (0 : Byte)).length := by
  decide +kernel

/-- O60: reset, before and after REN's signal. -/
theorem witness_EmuStartsAfterRenderReady :
    (State.reset.agenda = [] ∧ State.reset.draw = none ∧ State.reset.pool.renderReady = false) ∧
    (let s := { State.reset with pool := { State.reset.pool with renderReady := true } };
      Inv s ∧ 3 ≤ s.cfg.poolCap ∧ s.agenda = [] ∧ s.draw = none ∧ s.pool.renderReady = true ∧ s.renBetween = []) :=
  ⟨by decide +kernel, inv_of_invariant (by decide +kernel), by decide, by decide +kernel⟩

end Sys2Proof.Tests
end

section
/-! The eight-bit arithmetic and logic (R33 to R37) and the two resets (R51): what the flag formulas put into each bit of `F`, what an
accumulator operation does in each operand form, and the obligations about them. -/

namespace Sys2Proof.Proofs

open Machine Claims

/-! ### Bits of a byte -/

@[simp] theorem getElem_bitIf (c : Bool) (m : Byte) (i : Nat) (hi : i < 8) : (bitIf c m)[i] = (c && m[i]) := by
  cases c <;> simp [bitIf]

theorem getLsbD_seven (v : Byte) : v.getLsbD 7 = decide (128 ≤ v.toNat) := BitVec.msb_eq_decide v

theorem toInt_eq_ite (v : Byte) : v.toInt = if 128 ≤ v.toNat then (v.toNat : Int) - 256 else v.toNat := by
  rw [BitVec.toInt_eq_toNat_cond]; split <;> split <;> omega

theorem and_sign_ne_zero (v : Byte) : (v &&& 0x80 != 0) = v.getLsbD 7 := by
  rw [show (0x80 : Byte) = BitVec.twoPow 8 7 from rfl, BitVec.and_twoPow]
  cases v.getLsbD 7 <;> rfl

theorem toNat_lowDigit (v : Byte) : (v &&& 0x0F).toNat = v.toNat % 16 :=
  (BitVec.toNat_and ..).trans (Nat.and_two_pow_sub_one_eq_mod _ 4)

theorem lowDigit_beq (v k : Byte) : (v &&& 0x0F == k) = (v.toNat % 16 == k.toNat) := by
  rw [Bool.eq_iff_iff, beq_iff_eq, beq_iff_eq, ← BitVec.toNat_inj, toNat_lowDigit]

/-- A borrow, as R35 tests it on the difference and as the operands show it. -/
theorem int_sub_sub_neg_iff (x y z : Nat) : (x : Int) - y - z < 0 ↔ x < y + z := by omega

/-- The overflow mask of R34 in its sign bits. -/
theorem addOverflow_eq (a b res : Byte) :
    ((a ^^^ b ^^^ 0x80) &&& (a ^^^ res) &&& 0x80 != 0) =
      (a.getLsbD 7 == b.getLsbD 7 && res.getLsbD 7 != a.getLsbD 7) := by
  rw [and_sign_ne_zero, BitVec.getLsbD_and, BitVec.getLsbD_xor, BitVec.getLsbD_xor, BitVec.getLsbD_xor]
  cases a.getLsbD 7 <;> cases b.getLsbD 7 <;> cases res.getLsbD 7 <;> rfl

/-- The overflow mask of R35 in its sign bits. -/
theorem subOverflow_eq (a b res : Byte) :
    ((a ^^^ b) &&& (a ^^^ res) &&& 0x80 != 0) = (a.getLsbD 7 != b.getLsbD 7 && res.getLsbD 7 == b.getLsbD 7) := by
  rw [and_sign_ne_zero, BitVec.getLsbD_and, BitVec.getLsbD_xor, BitVec.getLsbD_xor]
  cases a.getLsbD 7 <;> cases b.getLsbD 7 <;> cases res.getLsbD 7 <;> rfl

theorem evenCountP_cons {α : Type} (p : α → Bool) (x : α) (l : List α) :
    ((x :: l).countP p % 2 == 0) = (p x ^^ (l.countP p % 2 == 0)) := by
  rw [List.countP_cons, Bool.eq_iff_iff]
  cases p x <;> simp
  omega

/-- The model's parity, an exclusive or of the bits, is the count of the statements (R33). -/
theorem evenParity_eq_evenOnes (v : Byte) : evenParity v = evenOnes v := by
  rw [evenOnes, show List.range 8 = [0, 1, 2, 3, 4, 5, 6, 7] from rfl]
  simp only [evenCountP_cons, List.countP_nil]
  simp [evenParity]

/-! ### What the flag formulas put into `F` (R33 to R37, R308) -/

/-- Every formula of R34 to R37 is `SZXY(res)` with the other flags or-ed in: these are then the only ones to look at. -/
theorem flagsAre_flagsSZXY_or {g : Byte} (res : Byte) {half pv n carry : Bool}
    (hg : FlagsAre g false false false half false pv n carry) :
    FlagsAre (flagsSZXY res ||| g) (res.getLsbD 7) (res == 0) (res.getLsbD 5) half (res.getLsbD 3) pv n carry := by
  simp_all [FlagsAre, flagsSZXY, flagsSZ, flagsXY]

theorem add8_fst (a b : Byte) (c : Bool) : (add8 a b c).1 = a + b + BitVec.ofNat 8 c.toNat := by
  simp [add8, BitVec.ofNat_add]

theorem sub8_fst (a b : Byte) (c : Bool) : (sub8 a b c).1 = a - b - BitVec.ofNat 8 c.toNat := by
  simp [sub8, Int.sub_eq_add_neg, BitVec.sub_eq_add_neg, BitVec.ofInt_add, BitVec.ofInt_neg]

theorem toNat_add8 (a b : Byte) (c : Bool) : (add8 a b c).1.toNat = (a.toNat + b.toNat + c.toNat) % 256 := rfl

theorem toNat_sub8 (a b : Byte) (c : Bool) :
    ((sub8 a b c).1.toNat : Int) = ((a.toNat : Int) - b.toNat - c.toNat) % 256 := by
  simp only [sub8, BitVec.toNat_ofInt]
  omega

theorem addFlags_add8 (a b : Byte) (c : Bool) : AddFlags a b c (add8 a b c).2 := by
  unfold AddFlags
  rw [← add8_fst]
  simp only [add8, BitVec.or_assoc, toNat_lowDigit, addOverflow_eq]
  apply flagsAre_flagsSZXY_or
  simp [FlagsAre]

theorem subFlags_sub8 (a b : Byte) (c : Bool) : SubFlags a b c (sub8 a b c).2 := by
  unfold SubFlags
  rw [← sub8_fst]
  simp only [sub8, BitVec.or_assoc, toNat_lowDigit, subOverflow_eq, int_sub_sub_neg_iff]
  apply flagsAre_flagsSZXY_or
  simp [FlagsAre]

/-- The flags of `CP v` on the accumulator `a` (R308). -/
def CpFlags (a v f : Byte) : Prop :=
  FlagsAre f ((a - v).getLsbD 7) (a == v) (v.getLsbD 5) (decide (a.toNat % 16 < v.toNat % 16)) (v.getLsbD 3)
    (a.getLsbD 7 != v.getLsbD 7 && (a - v).getLsbD 7 == v.getLsbD 7) true (decide (a.toNat < v.toNat))

theorem cpFlags_flagsCp (a v : Byte) : CpFlags a v (flagsCp a v) := by
  have zero : (a - v == 0) = (a == v) := by
    rw [Bool.eq_iff_iff, beq_iff_eq, beq_iff_eq]; bv_omega
  have hsub := subFlags_sub8 a v false
  rw [SubFlags, show a - v - BitVec.ofNat 8 false.toNat = a - v from BitVec.sub_zero _, zero] at hsub
  simp_all [CpFlags, FlagsAre, flagsCp]

theorem resultFlags_flagsLogic (res : Byte) (isAnd : Bool) : ResultFlags res isAnd false false (flagsLogic res isAnd) := by
  unfold ResultFlags
  simp only [flagsLogic, flagsSZXYP, BitVec.or_assoc]
  apply flagsAre_flagsSZXY_or
  simp [FlagsAre, flagsPar, evenParity_eq_evenOnes]

theorem incFlags_inc8 (f v : Byte) : IncFlags f v (inc8 f v).2 := by
  have zero : (v + 1 == 0) = (v == 0xFF) := by
    rw [Bool.eq_iff_iff, beq_iff_eq, beq_iff_eq]; bv_omega
  unfold IncFlags
  rw [← zero]
  simp only [inc8, BitVec.or_assoc, lowDigit_beq]
  apply flagsAre_flagsSZXY_or
  simp [FlagsAre]

theorem decFlags_dec8 (f v : Byte) : DecFlags f v (dec8 f v).2 := by
  have zero : (v - 1 == 0) = (v == 0x01) := by
    rw [Bool.eq_iff_iff, beq_iff_eq, beq_iff_eq]; bv_omega
  unfold DecFlags
  rw [← zero]
  simp only [dec8, BitVec.or_assoc, lowDigit_beq]
  apply flagsAre_flagsSZXY_or
  simp [FlagsAre]

/-! ### From a meaning to the words of the statements -/

/-- An instruction that writes a byte and sets the register file stores that byte (R74). -/
theorem stores_of_exec {i : Instr} {s : State} {c : Cpu} {n : Nat} {a : Word} {v : Byte}
    (h : exec i s = finish n ((s.memWrite a v).setCpu c)) : Stores i s c n a v := by
  refine ⟨(s.memWrite a v).phys, ?_, s.phys_memWrite_read a v⟩
  rw [h, s.memWrite_only_phys a v]
  rfl

/-- The same, where `F` alone is set. -/
theorem stores_of_exec_setF {i : Instr} {s : State} {f : Byte} {n : Nat} {a : Word} {v : Byte}
    (h : exec i s = finish n ((s.memWrite a v).setF f)) : Stores i s { s.cpu with f := f } n a v :=
  stores_of_exec (by rw [h, State.setF, State.memWrite_cpu])

/-- An accumulator operation in its five operand forms is one function of the operand, at the T-states of R300 and R553. That each
form is that function is read off `exec`. -/
theorem exec_of_accForm {onR : Reg8 → Instr} {onN : Byte → Instr} {onHl : Instr} {onIdx : Idx → Byte → Instr}
    {onHalf : Idx → Half → Instr} {s : State} {i : Instr} {v : Byte} {n : Nat} (op : Byte → State)
    (form : AccForm onR onN onHl onIdx onHalf s i v n)
    (hR : ∀ r, exec (onR r) s = finish 4 (op (s.cpu.reg r)) := by intros; rfl)
    (hN : ∀ k, exec (onN k) s = finish 7 (op k) := by intros; rfl)
    (hHl : exec onHl s = finish 7 (op (s.memRead s.cpu.hl)) := by rfl)
    (hIdx : ∀ x d, exec (onIdx x d) s = finish 19 (op (s.memRead (s.cpu.idxAddr x d))) := by intros; rfl)
    (hHalf : ∀ x hf, exec (onHalf x hf) s = finish 8 (op (s.cpu.half x hf)) := by intros; rfl) :
    exec i s = finish n (op v) := by
  obtain ⟨r, rfl, rfl, rfl⟩ | ⟨k, rfl, rfl, rfl⟩ | ⟨rfl, rfl, rfl⟩ | ⟨x, d, rfl, rfl, rfl⟩ | ⟨x, hf, rfl, rfl, rfl⟩ := form
  · exact hR r
  · exact hN v
  · exact hHl
  · exact hIdx x d
  · exact hHalf x hf

/-- An instruction that sets `A` and `F` gives that result. -/
theorem accResult_of_exec {i : Instr} {s : State} {n : Nat} {res f : Byte} {flags : Byte → Prop}
    (h : exec i s = finish n (s.setAF res f)) (hf : flags f) : AccResult i s n res flags := ⟨f, h, hf⟩

/-! ### Addition, subtraction, comparison, logic (R300 to R308, R553) -/

/-- Settles O26: each form is `ADD8` of the accumulator and the operand. -/
theorem additionToAccumulator : Obligations.AdditionToAccumulator := by
  intro s i v n
  refine ⟨fun form => ?add, fun form => ?adc⟩
  case add =>
    have res : (add8 s.cpu.a v false).1 = s.cpu.a + v := (add8_fst ..).trans (BitVec.add_zero _)
    rw [← res]
    exact accResult_of_exec (exec_of_accForm s.aluAdd form) (addFlags_add8 ..)
  case adc =>
    rw [← add8_fst]
    exact accResult_of_exec (exec_of_accForm s.aluAdc form) (addFlags_add8 ..)

/-- Settles O27: each form is `SUB8` of the accumulator and the operand, `CP` without the result. -/
theorem subtractionAndComparison : Obligations.SubtractionAndComparison := by
  intro s i v n
  refine ⟨fun form => ?sub, fun form => ?sbc, fun form => ?cp⟩
  case sub =>
    have res : (sub8 s.cpu.a v false).1 = s.cpu.a - v := (sub8_fst ..).trans (BitVec.sub_zero _)
    rw [← res]
    exact accResult_of_exec (exec_of_accForm s.aluSub form) (subFlags_sub8 ..)
  case sbc =>
    rw [← sub8_fst]
    exact accResult_of_exec (exec_of_accForm s.aluSbc form) (subFlags_sub8 ..)
  case cp => exact accResult_of_exec (exec_of_accForm s.aluCp form) (cpFlags_flagsCp ..)

/-- Settles O28: each form is a bitwise operation with the flags of `LOGIC`. -/
theorem logicOnAccumulator : Obligations.LogicOnAccumulator := by
  intro s i v n
  refine ⟨fun form => ?and, fun form => ?xor, fun form => ?or⟩
  case and => exact accResult_of_exec (exec_of_accForm s.aluAnd form) (resultFlags_flagsLogic _ true)
  case xor => exact accResult_of_exec (exec_of_accForm s.aluXor form) (resultFlags_flagsLogic _ false)
  case or => exact accResult_of_exec (exec_of_accForm s.aluOr form) (resultFlags_flagsLogic _ false)

/-! ### Overflow and carry as facts about numbers (R34, R35) -/

theorem boolToInt_eq_toNat (c : Bool) : c.toInt = c.toNat := by cases c <;> rfl

/-- The signed sum is exact when the overflow flag is clear: a sum of two bytes and a carry leaves the signed range by one turn at most. -/
theorem toInt_add8_iff (a b : Byte) (c : Bool) :
    (add8 a b c).1.toInt = a.toInt + b.toInt + c.toInt ↔ (add8 a b c).2.getLsbD 2 = false := by
  obtain ⟨-, -, -, -, -, pv, -, -⟩ := addFlags_add8 a b c
  have sum := toNat_add8 a b c
  have := c.toNat_le
  rw [pv, ← add8_fst, boolToInt_eq_toNat]
  simp only [toInt_eq_ite, getLsbD_seven, Bool.and_eq_false_imp, beq_iff_eq, decide_eq_decide, bne_eq_false_iff_eq]
  omega

theorem toInt_sub8_iff (a b : Byte) (c : Bool) :
    (sub8 a b c).1.toInt = a.toInt - b.toInt - c.toInt ↔ (sub8 a b c).2.getLsbD 2 = false := by
  obtain ⟨-, -, -, -, -, pv, -, -⟩ := subFlags_sub8 a b c
  have diff := toNat_sub8 a b c
  have := c.toNat_le
  rw [pv, ← sub8_fst, boolToInt_eq_toNat]
  simp only [toInt_eq_ite, getLsbD_seven, Bool.and_eq_false_imp, bne_iff_ne, ne_eq, decide_eq_decide, beq_eq_false_iff_ne]
  omega

theorem toNat_add8_iff (a b : Byte) (c : Bool) :
    (add8 a b c).1.toNat = a.toNat + b.toNat + c.toNat ↔ (add8 a b c).2.getLsbD 0 = false := by
  obtain ⟨-, -, -, -, -, -, -, carryOut⟩ := addFlags_add8 a b c
  rw [carryOut, toNat_add8, decide_eq_false_iff_not]
  omega

theorem toNat_sub8_iff (a b : Byte) (c : Bool) :
    ((sub8 a b c).1.toNat : Int) = (a.toNat : Int) - b.toNat - c.toInt ↔ (sub8 a b c).2.getLsbD 0 = false := by
  obtain ⟨-, -, -, -, -, -, -, borrow⟩ := subFlags_sub8 a b c
  rw [borrow, toNat_sub8, boolToInt_eq_toNat, decide_eq_false_iff_not]
  omega

/-- Settles O29: the four clauses, each read off the flag and the result of `ADD8` or `SUB8`. -/
theorem overflowFlagIsSignedOverflow : Obligations.OverflowFlagIsSignedOverflow := fun a b c =>
  ⟨toInt_add8_iff a b c, toNat_add8_iff a b c, toInt_sub8_iff a b c, toNat_sub8_iff a b c⟩

/-! ### Increment and decrement (R310 to R315, R554) -/

/-- Settles O30: each form is `INC8` or `DEC8` of its operand, written back where it came from. -/
theorem incrementAndDecrementByte : Obligations.IncrementAndDecrementByte := by
  intro s r x d hf
  refine ⟨⟨_, ?incR, incFlags_inc8 ..⟩, ⟨_, ?incAtHl, incFlags_inc8 ..⟩, ⟨_, ?incAtIdx, incFlags_inc8 ..⟩,
    ⟨_, ?incHalf, incFlags_inc8 ..⟩, ⟨_, ?decR, decFlags_dec8 ..⟩, ⟨_, ?decAtHl, decFlags_dec8 ..⟩,
    ⟨_, ?decAtIdx, decFlags_dec8 ..⟩, ⟨_, ?decHalf, decFlags_dec8 ..⟩⟩
  case incR | incHalf | decR | decHalf => exact rfl
  case incAtHl | incAtIdx | decAtHl | decAtIdx => exact stores_of_exec_setF rfl

/-! ### The two resets (R51, R52, R703, R870, R871) -/

theorem cpuReset_reset : CpuReset Cpu.reset := by
  simp [CpuReset, Cpu.reset]

theorem ulaReset_reset (c : Config) : UlaReset c (Ula.reset c) := by
  have pulse : (Ula.reset c).hsyncState = pulseAtZero c := rfl
  have constant : ∀ v, c.intGen = some v → (Ula.reset c).intGen = v := fun v h => by simp [Ula.reset, intGenOf, h]
  have free : c.intGen = none → (Ula.reset c).intGen = Config.intGenFn (Ula.reset c).syncFields := fun h => by
    simp [Ula.reset, intGenOf, h, Ula.syncFields]
  exact ⟨⟨rfl, rfl, rfl, rfl, rfl, rfl⟩, ⟨rfl, rfl, rfl, pulse⟩, ⟨rfl, rfl, rfl, rfl, rfl⟩, rfl, constant, free⟩

theorem poolReset_powerOn (c : Config) : PoolReset c (Pool.powerOn c) :=
  ⟨rfl, rfl, rfl, rfl, rfl, rfl, rfl, rfl, beq_iff_eq, rfl, rfl, rfl, rfl, rfl⟩

/-- Power-on that answers a next state laid the image into the storage and left the power-on state. -/
theorem powerOn_eq_next {c : Config} {image : List Byte} {ram : Memory} {s : State}
    (h : powerOn c (some image) ram = .next s) : s = State.powerOn c (ram.withRom c.romBytes image) := by
  unfold powerOn at h
  split_ifs at h
  cases h
  rfl

/-- Storage without an entry, one for each handle (R703). -/
theorem read_replicate_nil {n k : Nat} (hk : k < n) (j : Nat) : Memory.read ((List.replicate n []).getD k []) j = 0 := by
  rw [List.getD_replicate _ hk]
  rfl

/-- Settles O1: both resets are records of the values of R51 and R703, around what each of them keeps. -/
theorem resetsGiveTheirValues : Obligations.ResetsGiveTheirValues := by
  refine ⟨fun s => ⟨cpuReset_reset, rfl, rfl, rfl, ulaReset_reset s.cfg, rfl, rfl, rfl, rfl, rfl, rfl⟩, fun c image ram s h => ?_⟩
  obtain rfl := powerOn_eq_next h
  refine ⟨rfl, cpuReset_reset, rfl, rfl, rfl, ulaReset_reset c, rfl, poolReset_powerOn c,
    fun k j hk => ⟨read_replicate_nil hk j, read_replicate_nil hk j⟩, fun len => ⟨fun k hk => ?_, fun k hk => ?_⟩⟩
  · exact (Safety.read_withRom ..).trans (if_pos ⟨hk, by omega⟩)
  · exact (Safety.read_withRom ..).trans (if_neg (by omega))

end Sys2Proof.Proofs
end

section
/-! The memory model (R70 to R78) and the stack: CPU addresses as page and offset, a word as two bytes, two writes one after the other,
the decoder's totality that the step of the CPU rests on, the page table and its default map; and the obligations about them. -/

namespace Sys2Proof.Proofs

open Machine Claims

/-! ### Addresses as numbers (R71) -/

theorem pageOf_val (a : Word) : (pageOf a).val = a.toNat / 1024 := by
  have := a.isLt
  simp only [pageOf, BitVec.extractLsb'_toNat, Nat.shiftRight_eq_div_pow]
  omega

theorem pageOffset_eq_mod (a : Word) : pageOffset a = a.toNat % 1024 := by
  simp [pageOffset, BitVec.extractLsb'_toNat]

theorem entry_eq_getElem (s : State) (a : Word) (h : a.toNat / 1024 < 64) : s.entry a = s.pt[a.toNat / 1024] := by
  have page : pageOf a = ⟨a.toNat / 1024, h⟩ := Fin.ext (pageOf_val a)
  simp only [State.entry, page, Fin.getElem_fin]

theorem ofNat_succ_mod (a : Word) : BitVec.ofNat 16 ((a.toNat + 1) % 65536) = a + 1 := by bv_omega

/-! ### A word as two bytes (R11, R77) -/

theorem loByte_eq_ofNat (w : Word) : loByte w = BitVec.ofNat 8 (w.toNat % 256) := by
  apply BitVec.eq_of_toNat_eq
  simp [loByte, BitVec.extractLsb'_toNat]

theorem hiByte_eq_ofNat (w : Word) : hiByte w = BitVec.ofNat 8 (w.toNat / 256) := by
  apply BitVec.eq_of_toNat_eq
  simp [hiByte, BitVec.extractLsb'_toNat, Nat.shiftRight_eq_div_pow]

theorem toNat_joinBytes (h l : Byte) : (joinBytes h l).toNat = l.toNat + 256 * h.toNat := by
  rw [joinBytes, BitVec.toNat_append, ← Nat.shiftLeft_add_eq_or_of_lt l.isLt, Nat.shiftLeft_eq]
  omega

/-- The storage after two CPU writes (R74, R77). -/
theorem wroteTwo_memWrite_memWrite (s : State) (a b : Word) (v w : Byte) :
    WroteTwo s ((s.memWrite a v).memWrite b w).phys a v b w := by
  intro p
  rw [State.phys_memWrite_read, State.phys_memWrite_read, State.entry_memWrite, State.physAddr_memWrite]

/-- Settles O16: the rules for a CPU write and the byte read after it, with the address split into page and offset. -/
theorem memoryReadAfterWrite : Obligations.MemoryReadAfterWrite := by
  intro s a b v
  simp only [← entry_eq_getElem, ← pageOffset_eq_mod]
  refine ⟨rfl, s.memRead_memWrite a b v, s.memWrite_rom a v, s.memWrite_only_phys a v, fun p hp => ?_⟩
  rw [s.phys_memWrite_read, if_neg fun h => hp h.2]

/-- Settles O17: a 16-bit access is its two byte accesses; the bytes and addresses are then compared as numbers. -/
theorem wordAccessIsLittleEndian : Obligations.WordAccessIsLittleEndian := by
  refine ⟨fun s a => ?read, fun s a w => ⟨?write, s.memWrite16_only_phys a w⟩, fun s => rfl⟩
  case read =>
    rw [ofNat_succ_mod]
    exact toNat_joinBytes _ _
  case write =>
    rw [ofNat_succ_mod, ← loByte_eq_ofNat, ← hiByte_eq_ofNat]
    exact wroteTwo_memWrite_memWrite s a (a + 1) (loByte w) (hiByte w)

/-! ### The stack (R78, R230 to R233) -/

/-- An instruction that writes two bytes and sets the register file stores them (R74). -/
theorem storesTwo_of_exec {i : Instr} {s : State} {c : Cpu} {n : Nat} {a b : Word} {v w : Byte}
    (h : exec i s = finish n (((s.memWrite a v).memWrite b w).setCpu c)) : StoresTwo i s c n a v b w := by
  refine ⟨_, ?_, wroteTwo_memWrite_memWrite s a b v w⟩
  rw [h, State.memWrite_eq, State.memWrite_eq]
  rfl

theorem pushes_of_exec {i : Instr} {s : State} {n : Nat} {w : Word} (h : exec i s = finish n (s.push16 w)) :
    Pushes i s s.cpu n w := by
  refine storesTwo_of_exec (h.trans ?_)
  rw [State.push16_eq, State.setSp, State.memWrite_cpu, State.memWrite_cpu]
  rfl

@[simp] theorem push16_cpu (s : State) (w : Word) : (s.push16 w).cpu = { s.cpu with sp := s.cpu.sp - 2 } := by
  simp [State.push16_eq, State.setSp]

/-- What any address reads as after a push: the low byte is written last. -/
theorem memRead_push16 (s : State) (w a : Word) :
    (s.push16 w).memRead a =
      if (s.entry (s.cpu.sp - 2)).writable = true ∧ s.physAddr a = s.physAddr (s.cpu.sp - 2) then loByte w
      else if (s.entry (s.cpu.sp - 1)).writable = true ∧ s.physAddr a = s.physAddr (s.cpu.sp - 1) then hiByte w
      else s.memRead a := by
  simp [State.push16_eq, State.memRead_memWrite]

theorem popWord_push16 {s : State} (w : Word) (hi : (s.entry (s.cpu.sp - 1)).writable = true)
    (lo : (s.entry (s.cpu.sp - 2)).writable = true) (ne : s.physAddr (s.cpu.sp - 1) ≠ s.physAddr (s.cpu.sp - 2)) :
    (s.push16 w).popWord = w := by
  have next : s.cpu.sp - 2 + 1 = s.cpu.sp - 1 := by bv_omega
  rw [State.popWord, push16_cpu]
  dsimp only
  rw [next, memRead_push16, memRead_push16, if_neg fun h => ne h.2, if_pos ⟨hi, rfl⟩, if_pos ⟨lo, rfl⟩, joinBytes_hi_lo]

theorem popped_push16_cpu (s : State) (w : Word) : (s.push16 w).popped.cpu = s.cpu := by
  rw [State.popped, State.setSp, State.setCpu_cpu, push16_cpu]
  dsimp only
  rw [BitVec.sub_add_cancel]

/-- Settles O22: each push is the shared push of R78, each pop its word and its new `SP`. -/
theorem pushAndPop : Obligations.PushAndPop := by
  refine ⟨fun s q x => ⟨pushes_of_exec rfl, pushes_of_exec rfl, rfl, rfl, ?popAf⟩,
    fun s w hi lo ne => ⟨popWord_push16 w hi lo ne, popped_push16_cpu s w⟩⟩
  have af : s.popped.cpu.setStackPair .af s.popWord =
      { s.cpu with sp := s.cpu.sp + 2, f := s.memRead s.cpu.sp, a := s.memRead (s.cpu.sp + 1) } := by
    simp [State.popped, State.setSp, State.popWord, Cpu.setStackPair, Cpu.setAf]
  exact congrArg (fun c => finish 10 (s.popped.setCpu c)) af

/-! ### No sequence of four bytes is rejected (R125) -/

theorem decodeMain_total (op a b c : Byte) (rest : List Byte) : ∃ r, decodeMain op (a :: b :: c :: rest) = .ok r := by
  unfold decodeMain decodeMain0 decodeMain3
  repeat' split
  all_goals exact ⟨_, rfl⟩

theorem decodeEd_total (op a b : Byte) (rest : List Byte) : ∃ r, decodeEd op (a :: b :: rest) = .ok r := by
  unfold decodeEd decodeEd1
  repeat' split
  all_goals exact ⟨_, rfl⟩

theorem decodeIndex_total (x : Idx) (op a b : Byte) (rest : List Byte) : ∃ r, decodeIndex x op (a :: b :: rest) = .ok r := by
  unfold decodeIndex decodeIndex0 decodeIndex1 decodeIndex2
  dsimp only
  repeat' split
  all_goals exact ⟨_, rfl⟩

theorem decode_total (bs : List Byte) (len : 4 ≤ bs.length) : ∃ r, decode bs = .ok r := by
  match bs, len with
  | op :: op2 :: a :: b :: rest, _ =>
    simp only [decode]
    split_ifs
    · exact ⟨_, rfl⟩
    · exact decodeEd_total op2 a b rest
    · exact decodeIndex_total .ix op2 a b rest
    · exact decodeIndex_total .iy op2 a b rest
    · exact decodeMain_total op op2 a b rest

/-! ### The page table (R72, R75) -/

/-- A page of a rebuilt table: where it was asked to be, and writable as asked unless it lies in the ROM image (R72 (b)). -/
theorem protectRom_page (c : Config) (asked : PageTable) (p : Fin 64) :
    (Config.protectRom c asked)[p].base = asked[p].base ∧
      (Config.protectRom c asked)[p].writable = (asked[p].writable && decide (c.romBytes ≤ asked[p].base)) := by
  rw [Safety.protectRom_get]
  split_ifs with rom
  · exact ⟨rfl, by rw [decide_eq_false (Nat.not_le.2 rom), Bool.and_false]⟩
  · exact ⟨rfl, by rw [decide_eq_true (Nat.le_of_not_lt rom), Bool.and_true]⟩

/-- Whatever completes a change of the page-table inputs: the new inputs, the protected table in both places, and the image of a new
variant; the rest of the state stays. -/
theorem changeMemory_eq_next {s t : State} {inputs : MemoryInputs} {map : Option PageTable}
    (h : s.changeMemory inputs map = .next t) :
    (map = none → defaultMapGiven (changedInputs s.cfg inputs) = true) ∧
    t.pt = Config.protectRom (changedInputs s.cfg inputs) (map.getD (defaultMap (changedInputs s.cfg inputs))) ∧
    t = { s with cfg := { changedInputs s.cfg inputs with ptInit := t.pt }, pt := t.pt, phys := t.phys } ∧
    (inputs.rom = none → t.phys = s.phys) ∧
    ∀ n image, inputs.rom = some ⟨n, some image⟩ → t.phys = s.phys.withRom n image := by
  obtain ⟨rom, build⟩ | ⟨bytes, image, rom, build⟩ := Safety.changeMemory_cases h
  · obtain ⟨given, rebuild⟩ := Safety.buildPages_cases build
    obtain ⟨-, rfl⟩ := Safety.rebuildPages_cases rebuild
    exact ⟨given, rfl, rfl, fun _ => rfl, fun _ _ new => by cases rom.symm.trans new⟩
  · obtain ⟨given, rebuild⟩ := Safety.buildPages_cases build
    obtain ⟨-, rfl⟩ := Safety.rebuildPages_cases rebuild
    refine ⟨given, rfl, rfl, fun same => ?_, fun _ _ new => ?_⟩
    · cases rom.symm.trans same
    · cases rom.symm.trans new
      rfl

theorem defaultMapGiven_iff (c : Config) :
    defaultMapGiven c = true ↔ 1 ≤ c.ramSize ∧ c.ramSize ≤ 16 ∧ (c.romBytes = 4096 ∨ c.romBytes = 8192) := by
  simp [defaultMapGiven, and_assoc]

theorem defaultMap_page (c : Config) (p : Fin 64) :
    (defaultMap c)[p] = Config.lowerPage (c.romBytes / 1024) c.ramSize c.lowRam (p.val % 32) := by
  simp [defaultMap, Config.defaultPages, Config.pageSize]

/-- The default map in the numbers of R75. -/
theorem lowerPage_eq (romPages ramPages p : Nat) (low : Bool) :
    Config.lowerPage romPages ramPages low p =
      if p < 8 then ⟨1024 * (p % romPages), false⟩
      else if 16 ≤ p then ⟨8192 + 1024 * ((p - 16) % ramPages), true⟩
      else if low then ⟨24576 + 1024 * (p - 8), true⟩
      else ⟨1024 * ((p - 8) % romPages), false⟩ := by
  simp only [Config.lowerPage, Config.pageSize, Config.ramBase, Config.lowRamBase, ← Nat.not_lt (a := p), ite_not]

/-- Below the RAM the default map has ROM pages only. -/
theorem lowerPage_readOnly {romPages ramPages p : Nat} {low : Bool}
    (below : (Config.lowerPage romPages ramPages low p).base < 8192) :
    (Config.lowerPage romPages ramPages low p).writable = false := by
  rw [lowerPage_eq] at *
  split_ifs at *
  · rfl
  · dsimp only at below; omega
  · dsimp only at below; omega
  · rfl

/-- So R72 (b) takes nothing from the default map. -/
theorem protectRom_defaultMap_page {c : Config} (rom : c.romBytes ≤ 8192) (p : Fin 64) :
    (Config.protectRom c (defaultMap c))[p] = (defaultMap c)[p] := by
  rw [Safety.protectRom_get]
  split_ifs with below
  · rw [defaultMap_page] at *
    rw [← lowerPage_readOnly (Nat.lt_of_lt_of_le below rom)]
  · rfl

theorem lowerPage_inside {romPages ramPages p : Nat} (low : Bool) (romPos : 0 < romPages) (romMax : romPages ≤ 8)
    (ramPos : 0 < ramPages) (ramMax : ramPages ≤ 16) (hp : p < 32) :
    (Config.lowerPage romPages ramPages low p).base + 1024 ≤ 32768 := by
  have romPage := fun k => Nat.mod_lt k romPos
  have ramPage := Nat.mod_lt (p - 16) ramPos
  rw [lowerPage_eq]
  split_ifs
  · have := romPage p; dsimp only; omega
  · dsimp only; omega
  · dsimp only; omega
  · have := romPage (p - 8); dsimp only; omega

theorem defaultMap_inside {c : Config} (given : defaultMapGiven c = true) (phys : 32768 ≤ c.physBytes) :
    Config.pagesInside c (defaultMap c) = true := by
  obtain ⟨ramPos, ramMax, rom⟩ := (defaultMapGiven_iff c).1 given
  have pages : (defaultMap c).toList =
      (List.range 64).map fun p => Config.lowerPage (c.romBytes / 1024) c.ramSize c.lowRam (p % 32) := rfl
  rw [Config.pagesInside, pages, List.all_map, List.all_eq_true]
  intro p _
  have := lowerPage_inside (romPages := c.romBytes / 1024) c.lowRam (by omega) (by omega) ramPos ramMax
    (Nat.mod_lt p (by decide : 0 < 32))
  exact decide_eq_true (this.trans phys)

/-- A build of the default map completes where it is given and `PHYS` has room for it. -/
theorem buildPages_default {s : State} (given : defaultMapGiven s.cfg = true) (phys : 32768 ≤ s.cfg.physBytes) :
    ∃ t, s.buildPages none = .next t := by
  unfold State.buildPages State.rebuildPages
  rw [if_pos given, if_pos (defaultMap_inside given phys)]
  exact ⟨_, rfl⟩

/-- Settles O7: a rebuild is the protected table and a change of the inputs is a rebuild for the new ones; the last clause is the
frame that every instruction and interrupt entry keeps. -/
theorem romNeverChanges : Obligations.RomNeverChanges := by
  refine ⟨fun s t asked h p => ?rebuild, fun s t inputs map h => ?change, fun s size n low image one le rom phys => ?completes,
    fun s t inv h p ro => ((Safety.stepCpu_ok decode_total inv).step t h).rom p ro⟩
  case rebuild =>
    obtain ⟨-, rfl⟩ := Safety.rebuildPages_cases h
    exact protectRom_page s.cfg asked p
  case change =>
    obtain ⟨covered, table, rest, kept, laid⟩ := changeMemory_eq_next h
    refine ⟨rest, fun asked given p => ?board, fun given => ?default, kept, fun n image new k => ?image⟩
    case board =>
      subst given
      rw [table]
      exact protectRom_page (changedInputs s.cfg inputs) asked p
    case default =>
      subst given
      obtain ⟨-, -, rom⟩ := (defaultMapGiven_iff _).1 (covered rfl)
      refine ⟨rom, fun p => ?_⟩
      rw [table, Option.getD_none, protectRom_defaultMap_page (by omega), defaultMap_page, lowerPage_eq]
      rfl
    case image => rw [laid n image new, Safety.read_withRom]
  case completes =>
    have given : ∀ c : Config, c.ramSize = size → c.romBytes = n → defaultMapGiven c = true := fun c ram bytes =>
      (defaultMapGiven_iff c).2 (by omega)
    exact ⟨buildPages_default (given _ rfl rfl) phys, fun same => buildPages_default (given _ rfl same) phys⟩

end Sys2Proof.Proofs
end

section
/-! The encoding (R110 to R125, R130): the decoder gives back what the encoder writes, every byte sequence is an instruction, and
a prefix row runs what follows; and the obligations about them. -/

namespace Sys2Proof.Proofs

open Machine Claims

/-! ### Decoding what the encoder writes -/

open Laws.RoundTrip in
/-- The round trips of the 213 rows put together, in the order of the constructors. -/
theorem decode_encode (i : Instr) : Statement i :=
  Instr.rec (motive := Statement)
    nop ldPairNn ldAtBcA incPair incR decR ldRN rlca exAfAf addHlPair ldAAtBc decPair rrca djnz ldAtDeA rla jr ldAAtDe rra
    jrNz ldAtNnHl daa jrZ ldHlAtNn cpl jrNc ldAtNnA incAtHl decAtHl ldAtHlN scf jrC ldAAtNn ccf ldRR ldRAtHl ldAtHlR halt
    addAR addAAtHl addAN adcAR adcAAtHl adcAN subR subAtHl subN sbcAR sbcAAtHl sbcAN andR andAtHl andN xorR xorAtHl xorN orR
    orAtHl orN cpR cpAtHl cpN retCc popPair jpCcNn jpNn outNA exAtSpHl di callCcNn pushPair rst ret exx jpHl ldSpHl prefixCb
    inAN exDeHl ei callNn prefixDd prefixEd prefixFd rlcR rlcAtHl rrcR rrcAtHl rlR rlAtHl rrR rrAtHl slaR slaAtHl sraR sraAtHl
    sllR sllAtHl srlR srlAtHl bitR bitAtHl resR resAtHl setR setAtHl inRC inFC outCR outC0 sbcHlPair adcHlPair ldAtNnPair
    ldPairAtNn neg negMirror retn reti retnMirror im0 im1 im2 im0Mirror4E im0Mirror66 im0Mirror6E im1Mirror im2Mirror ldIA
    ldRefreshA ldAI ldARefresh rrd rld nopEd77 nopEd7F ldi cpi ini outi ldd cpd ind outd ldir cpir inir otir lddr cpdr indr
    otdr nopEdUndefined ldIdxNn addIdxPair ldAtNnIdx incIdx incHalf decHalf ldHalfN ldIdxAtNn decIdx incAtIdx decAtIdx
    ldAtIdxN ldRAtIdx ldAtIdxR ldRHalf ldHalfR addAHalf addAAtIdx adcAHalf adcAAtIdx subHalf subAtIdx sbcAHalf sbcAAtIdx
    andHalf andAtIdx xorHalf xorAtIdx orHalf orAtIdx cpHalf cpAtIdx popIdx exAtSpIdx pushIdx jpIdx ldSpIdx prefixIdxCb
    indexPrefixNoEffect rlcAtIdx rlcAtIdxR rrcAtIdx rrcAtIdxR rlAtIdx rlAtIdxR rrAtIdx rrAtIdxR slaAtIdx slaAtIdxR sraAtIdx
    sraAtIdxR sllAtIdx sllAtIdxR srlAtIdx srlAtIdxR bitAtIdx bitAtIdxMirror resAtIdx resAtIdxR setAtIdx setAtIdxR i

/-- Settles O8: the encoding laws hold the round trip of each constructor. -/
theorem decodeEncodeRoundTrip : Obligations.DecodeEncodeRoundTrip := decode_encode

/-- Settles O10: the decoder computes on each of the twelve words. -/
theorem writtenOutWordsDecode : Obligations.WrittenOutWordsDecode :=
  ⟨rfl, rfl, rfl, rfl, rfl, rfl, rfl, rfl, rfl, rfl, rfl, rfl⟩

/-! ### Every byte sequence is an instruction (R111, R125) -/

/-- The answer `d` of the decoder to the bytes `bs` is a well-formed instruction of `lo` to four bytes whose encoding is the bytes
read; `isPrefix` says whether it is a prefix row. -/
def Reads (bs : List Byte) (lo : Nat) (isPrefix : Bool) (d : Decoded) : Prop :=
  ∃ i len, d = .ok (i, len) ∧ i.wf = true ∧ i.isPrefixRow = isPrefix ∧ lo ≤ len ∧ len ≤ 4 ∧ encode i = bs.take len

/-- The opcode byte with the fields `x`, `y`, `z` (R111). -/
def ofFields (x : BitVec 2) (y z : BitVec 3) : Byte := x ++ y ++ z

theorem ofFields_extractLsb' (op : Byte) : ofFields (op.extractLsb' 6 2) (fieldY op) (fieldZ op) = op := by
  revert op; decide +kernel

theorem ofFields_cases {motive : Byte → Prop} (h : ∀ x y z, motive (ofFields x y z)) (op : Byte) : motive op :=
  ofFields_extractLsb' op ▸ h ..

theorem fieldX_ofFields (x : BitVec 2) (y z : BitVec 3) : fieldX (ofFields x y z) = x.toNat := by
  revert x y z; decide +kernel

theorem twoBits_cases {motive : BitVec 2 → Prop} (h0 : motive 0) (h1 : motive 1) (h2 : motive 2) (h3 : motive 3)
    (b : BitVec 2) : motive b := by
  obtain rfl | rfl | rfl | rfl : b = 0 ∨ b = 1 ∨ b = 2 ∨ b = 3 := by revert b; decide
  all_goals assumption

theorem threeBits_cases {motive : BitVec 3 → Prop} (h0 : motive 0) (h1 : motive 1) (h2 : motive 2) (h3 : motive 3)
    (h4 : motive 4) (h5 : motive 5) (h6 : motive 6) (h7 : motive 7) (b : BitVec 3) : motive b := by
  obtain rfl | rfl | rfl | rfl | rfl | rfl | rfl | rfl := Laws.RoundTrip.three_bits b <;> assumption

/-! With the fields of its opcode known, a table answers by computation; only a 16-bit operand is joined and split again. -/

theorem reads_decodeMain0 (y z : BitVec 3) (a b : Byte) (rest : List Byte) :
    Reads (ofFields 0 y z :: a :: b :: rest) 1 (isPrefixByte (ofFields 0 y z))
      (decodeMain0 (ofFields 0 y z) (a :: b :: rest)) := by
  cases y using threeBits_cases <;> cases z using threeBits_cases <;>
  exact ⟨_, _, rfl, rfl, rfl, by decide, by decide, by simp only [encode, loByte_joinBytes, hiByte_joinBytes]; rfl⟩

theorem reads_decodeMain1 (y z : BitVec 3) (rest : List Byte) :
    Reads (ofFields 1 y z :: rest) 1 (isPrefixByte (ofFields 1 y z)) (.ok (decodeMain1 (ofFields 1 y z), 1)) := by
  cases y using threeBits_cases <;> cases z using threeBits_cases <;>
  exact ⟨_, _, rfl, rfl, rfl, by decide, by decide, rfl⟩

theorem reads_decodeMain2 (y z : BitVec 3) (rest : List Byte) :
    Reads (ofFields 2 y z :: rest) 1 (isPrefixByte (ofFields 2 y z)) (.ok (decodeMain2 (ofFields 2 y z), 1)) := by
  cases y using threeBits_cases <;> cases z using threeBits_cases <;>
  exact ⟨_, _, rfl, rfl, rfl, by decide, by decide, rfl⟩

theorem reads_decodeMain3 (y z : BitVec 3) (a b : Byte) (rest : List Byte) :
    Reads (ofFields 3 y z :: a :: b :: rest) 1 (isPrefixByte (ofFields 3 y z))
      (decodeMain3 (ofFields 3 y z) (a :: b :: rest)) := by
  cases z using threeBits_cases
  case h6 => cases y using threeBits_cases <;> exact ⟨_, _, rfl, rfl, rfl, by decide, by decide, rfl⟩
  all_goals
    cases y using threeBits_cases <;>
    exact ⟨_, _, rfl, rfl, rfl, by decide, by decide, by simp only [encode, loByte_joinBytes, hiByte_joinBytes]; rfl⟩

theorem reads_decodeMain (op a b : Byte) (rest : List Byte) :
    Reads (op :: a :: b :: rest) 1 (isPrefixByte op) (decodeMain op (a :: b :: rest)) := by
  cases op using ofFields_cases with | h x y z => ?_
  rw [decodeMain, fieldX_ofFields]
  cases x using twoBits_cases
  case h0 => exact reads_decodeMain0 ..
  case h1 => exact reads_decodeMain1 ..
  case h2 => exact reads_decodeMain2 ..
  case h3 => exact reads_decodeMain3 ..

theorem reads_decodeCb (op : Byte) (rest : List Byte) : Reads (0xCB :: op :: rest) 2 false (.ok (decodeCb op, 2)) := by
  cases op using ofFields_cases with | h x y z => ?_
  cases x using twoBits_cases <;> cases y using threeBits_cases <;> cases z using threeBits_cases <;>
  exact ⟨_, _, rfl, rfl, rfl, by decide, by decide, rfl⟩

theorem reads_decodeEd1 (y z : BitVec 3) (a b : Byte) (rest : List Byte) :
    Reads (0xED :: ofFields 1 y z :: a :: b :: rest) 2 false (decodeEd1 (ofFields 1 y z) (a :: b :: rest)) := by
  cases y using threeBits_cases <;> cases z using threeBits_cases <;>
  exact ⟨_, _, rfl, rfl, rfl, by decide, by decide, by simp only [encode, loByte_joinBytes, hiByte_joinBytes]; rfl⟩

theorem reads_decodeEd (op a b : Byte) (rest : List Byte) :
    Reads (0xED :: op :: a :: b :: rest) 2 false (decodeEd op (a :: b :: rest)) := by
  cases op using ofFields_cases with | h x y z => ?_
  rw [decodeEd, fieldX_ofFields]
  cases x using twoBits_cases
  case h1 => exact reads_decodeEd1 ..
  all_goals
    cases y using threeBits_cases <;> cases z using threeBits_cases <;>
    exact ⟨_, _, rfl, rfl, rfl, by decide, by decide, rfl⟩

theorem reads_decodeIndexCb (x : Idx) (d op : Byte) (rest : List Byte) :
    Reads (indexByte x :: 0xCB :: d :: op :: rest) 2 false (.ok (decodeIndexCb x d op, 4)) := by
  cases op using ofFields_cases with | h f y z => ?_
  cases f using twoBits_cases <;> cases y using threeBits_cases <;> cases z using threeBits_cases <;>
  exact ⟨_, _, rfl, rfl, rfl, by decide, by decide, rfl⟩

theorem reads_decodeIndex0 (x : Idx) (y z : BitVec 3) (a b : Byte) (rest : List Byte) :
    Reads (indexByte x :: ofFields 0 y z :: a :: b :: rest) 2 (!inMapFour (ofFields 0 y z))
      (decodeIndex0 x (ofFields 0 y z) (a :: b :: rest)) := by
  cases y using threeBits_cases <;> cases z using threeBits_cases <;>
  exact ⟨_, _, rfl, rfl, rfl, by decide, by decide, by simp only [encode, loByte_joinBytes, hiByte_joinBytes]; rfl⟩

theorem reads_decodeIndex1 (x : Idx) (y z : BitVec 3) (a b : Byte) (rest : List Byte) :
    Reads (indexByte x :: ofFields 1 y z :: a :: b :: rest) 2 (!inMapFour (ofFields 1 y z))
      (decodeIndex1 x (ofFields 1 y z) (a :: b :: rest)) := by
  cases y using threeBits_cases <;> cases z using threeBits_cases <;>
  exact ⟨_, _, rfl, rfl, rfl, by decide, by decide, rfl⟩

theorem reads_decodeIndex2 (x : Idx) (y z : BitVec 3) (a b : Byte) (rest : List Byte) :
    Reads (indexByte x :: ofFields 2 y z :: a :: b :: rest) 2 (!inMapFour (ofFields 2 y z))
      (decodeIndex2 x (ofFields 2 y z) (a :: b :: rest)) := by
  cases y using threeBits_cases <;> cases z using threeBits_cases <;>
  exact ⟨_, _, rfl, rfl, rfl, by decide, by decide, rfl⟩

/-- The row is well formed but at 0xCB, 0xDD and 0xFD, which `decodeIndex` answers before it reaches this table. -/
theorem decodeIndex3_row (x : Idx) (y z : BitVec 3) :
    (decodeIndex3 x (ofFields 3 y z)).wf = (!isIndexPrefix (ofFields 3 y z) && ofFields 3 y z != 0xCB) ∧
    (decodeIndex3 x (ofFields 3 y z)).isPrefixRow = (!inMapFour (ofFields 3 y z) || ofFields 3 y z == 0xCB) ∧
      encode (decodeIndex3 x (ofFields 3 y z)) = [indexByte x, ofFields 3 y z] := by
  cases y using threeBits_cases <;> cases z using threeBits_cases <;> exact ⟨rfl, rfl, rfl⟩

theorem reads_decodeIndex (x : Idx) {op : Byte} (a b : Byte) (rest : List Byte) (index : isIndexPrefix op = false) :
    Reads (indexByte x :: op :: a :: b :: rest) 2 (!inMapFour op) (decodeIndex x op (a :: b :: rest)) := by
  by_cases cb : op = 0xCB
  · rw [cb]
    exact reads_decodeIndexCb x a b rest
  · rw [decodeIndex, if_neg (by rw [index]; decide), if_neg cb]
    cases op using ofFields_cases with | h f y z => ?_
    rw [fieldX_ofFields]
    cases f using twoBits_cases
    case h0 => exact reads_decodeIndex0 ..
    case h1 => exact reads_decodeIndex1 ..
    case h2 => exact reads_decodeIndex2 ..
    case h3 =>
      obtain ⟨wf, row, bytes⟩ := decodeIndex3_row x y z
      rw [index, bne_iff_ne.2 cb] at wf
      rw [beq_eq_false_iff_ne.2 cb, Bool.or_false] at row
      exact ⟨_, _, rfl, wf, row, by decide, by decide, bytes⟩

/-! The first byte selects the table (R112, R119 to R124). -/

theorem isIndexPrefix_iff (op : Byte) : isIndexPrefix op = true ↔ op = 0xDD ∨ op = 0xFD := by
  simp [isIndexPrefix]

theorem not_isIndexPrefix_iff (op : Byte) : isIndexPrefix op = false ↔ op ≠ 0xDD ∧ op ≠ 0xFD := by
  simp [isIndexPrefix]

theorem exists_indexByte {op : Byte} (h : isIndexPrefix op = true) : ∃ x, op = indexByte x :=
  ((isIndexPrefix_iff op).1 h).elim (⟨.ix, ·⟩) (⟨.iy, ·⟩)

theorem decode_index (x : Idx) (op : Byte) (rest : List Byte) : decode (indexByte x :: op :: rest) = decodeIndex x op rest := by
  cases x <;> rfl

/-- How many M1 fetches read an instruction that begins with `op`, no index prefix (R144 to R146). -/
def opcodeFetches (op : Byte) : Nat := if isPrefixByte op then 2 else 1

theorem reads_decode_opcode {op : Byte} (op2 a b : Byte) (rest : List Byte) (index : isIndexPrefix op = false) :
    Reads (op :: op2 :: a :: b :: rest) (opcodeFetches op) false (decode (op :: op2 :: a :: b :: rest)) := by
  by_cases cb : op = 0xCB
  · rw [cb]
    exact reads_decodeCb op2 _
  · by_cases ed : op = 0xED
    · rw [ed]
      exact reads_decodeEd op2 a b rest
    · have main : isPrefixByte op = false := by simp_all [isIndexPrefix, isPrefixByte]
      have table : decode (op :: op2 :: a :: b :: rest) = decodeMain op (op2 :: a :: b :: rest) := by
        simp_all [isPrefixByte, decode]
      have reads := reads_decodeMain op op2 a (b :: rest)
      rw [main] at reads
      rw [table, opcodeFetches, main]
      exact reads

theorem reads_decode_index (x : Idx) {op : Byte} (a b : Byte) (rest : List Byte) (index : isIndexPrefix op = false) :
    Reads (indexByte x :: op :: a :: b :: rest) 2 (!inMapFour op) (decode (indexByte x :: op :: a :: b :: rest)) := by
  rw [decode_index]
  exact reads_decodeIndex x a b rest index

theorem decode_index_index (x : Idx) {op : Byte} (rest : List Byte) (index : isIndexPrefix op = true) :
    decode (indexByte x :: op :: rest) = .ok (prefixRow x, 1) := by
  rw [decode_index]
  exact if_pos index

theorem reads_prefixRow (x : Idx) (bs : List Byte) : Reads (indexByte x :: bs) 1 true (.ok (prefixRow x, 1)) := by
  cases x <;> exact ⟨_, _, rfl, rfl, rfl, by decide, by decide, rfl⟩

/-- Settles O9: whichever table the first byte selects, it reads the bytes. -/
theorem everyByteSequenceDecodes : Obligations.EveryByteSequenceDecodes := by
  intro bs four
  match bs, four with
  | op :: op2 :: a :: b :: rest, _ =>
  suffices ∃ lo row, 1 ≤ lo ∧ Reads (op :: op2 :: a :: b :: rest) lo row (decode (op :: op2 :: a :: b :: rest)) by
    obtain ⟨lo, row, pos, i, len, e, wf, -, le, four, bytes⟩ := this
    exact ⟨i, len, e, wf, pos.trans le, four, bytes⟩
  cases index : isIndexPrefix op with
  | false => exact ⟨_, _, by unfold opcodeFetches; split <;> decide, reads_decode_opcode op2 a b rest index⟩
  | true =>
    obtain ⟨x, rfl⟩ := exists_indexByte index
    cases next : isIndexPrefix op2 with
    | false => exact ⟨_, _, by decide, reads_decode_index x a b rest next⟩
    | true =>
      rw [decode_index_index x _ next]
      exact ⟨_, _, by decide, reads_prefixRow x _⟩

/-! ### Completion (R142) -/

/-- A well-formed state with buffers enough for a hand-over (R712). -/
def Ready (s : State) : Prop := Safety.Inv s ∧ 3 ≤ s.cfg.poolCap

theorem Ready.sameBlock {s t : State} (h : Ready s) (k : SameBlock s t) : Ready t :=
  ⟨Safety.Inv.sameBlock h.1 k, k.cfg ▸ h.2⟩

theorem Ready.setPfx {s : State} (h : Ready s) (p : Pfx) : Ready (s.setPfx p) := h.sameBlock ((SameBlock.refl s).setPfx p)

theorem Ready.fetched {s : State} (h : Ready s) (n m1 : Nat) : Ready (s.fetched n m1) :=
  h.sameBlock ((SameBlock.refl s).fetched n m1)

theorem andThen_completes {o : Out} {f : State → Out} (ho : ∃ t, o = .next t) (hf : ∀ t, ∃ u, f t = .next u) :
    ∃ u, andThen o f = .next u := by
  obtain ⟨t, rfl⟩ := ho
  exact hf t

theorem finish_completes (n : Nat) (s : State) : ∃ t, finish n s = .next t := ⟨_, rfl⟩

theorem finishIoBlock_completes (s : State) : ∃ t, finishIoBlock s = .next t := by
  unfold finishIoBlock
  split <;> exact finish_completes ..

theorem portRead_completes {s : State} (h : Ready s) (port : Word) (use : Byte → State → State) :
    ∃ t, s.portRead port use = .next t :=
  andThen_completes ((Safety.portEvents_ok .read port _ h.1).total h.2) fun _ => ⟨_, rfl⟩

theorem portWrite_completes {s : State} (h : Ready s) (port : Word) (v : Byte) : ∃ t, s.portWrite port v = .next t :=
  andThen_completes ((Safety.portEvents_ok .write port _ h.1).total h.2) fun _ => ⟨_, rfl⟩

theorem input_completes {s : State} (h : Ready s) (n : Nat) (port : Word) (use : Byte → State → State) :
    ∃ t, input n port use s = .next t := andThen_completes (portRead_completes h port use) (finish_completes n)

theorem output_completes {s : State} (h : Ready s) (n : Nat) (port : Word) (v : Byte) :
    ∃ t, output n port v s = .next t := andThen_completes (portWrite_completes h port v) (finish_completes n)

theorem inBlock_completes {s : State} (h : Ready s) (w : Word) : ∃ t, s.inBlock w = .next t := portRead_completes h ..

theorem outBlock_completes {s : State} (h : Ready s) (w : Word) : ∃ t, s.outBlock w = .next t :=
  andThen_completes (portWrite_completes (h.sameBlock ((SameBlock.refl s).setReg .b _)) ..) fun _ => ⟨_, rfl⟩

theorem exec_port_completes {i : Instr} {s : State} (h : Ready s) (port : i.isPort = true) : ∃ t, exec i s = .next t := by
  cases i <;> first | (exact absurd port Bool.false_ne_true) | skip
  case outNA | outCR | outC0 => exact output_completes h ..
  case inAN | inRC | inFC => exact input_completes h ..
  case ini | ind => exact andThen_completes (inBlock_completes h _) (finish_completes 16)
  case inir | indr => exact andThen_completes (inBlock_completes h _) finishIoBlock_completes
  case outi | outd => exact andThen_completes (outBlock_completes h _) (finish_completes 16)
  case otir | otdr => exact andThen_completes (outBlock_completes h _) finishIoBlock_completes

/-- Every row that is no prefix completes. -/
theorem exec_completes {i : Instr} {s : State} (h : Ready s) (plain : i.isPrefixRow = false) : ∃ t, exec i s = .next t := by
  cases port : i.isPort with
  | true => exact exec_port_completes h port
  | false =>
    obtain ⟨t, e, -⟩ := exec_quiet i s port plain
    exact ⟨t, e⟩

/-! ### The prefix rows (R119 to R123, R566 to R568)

The meaning of a row depends on how many further prefixes are allowed. Where it settles on one next state within the limit,
`exec` of a prefix row and `exec` of what the prefix leads to are the same run. -/

/-- From `n` on, the outcome is one and the same next state. -/
def Settles (n : Nat) (f : Nat → Out) : Prop := ∃ u, ∀ m, n ≤ m → f m = .next u

theorem Settles.mono {n k : Nat} {f : Nat → Out} (h : Settles n f) (le : n ≤ k) : Settles k f := by
  obtain ⟨u, hu⟩ := h
  exact ⟨u, fun m hm => hu m (le.trans hm)⟩

theorem Settles.withExtra {n : Nat} {f : Nat → Out} (h : Settles n f) (extra : Nat) :
    Settles n fun m => withExtra extra (f m) := by
  obtain ⟨u, hu⟩ := h
  exact ⟨u.took (u.cycles + extra), fun m hm => congrArg (Machine.withExtra extra) (hu m hm)⟩

theorem Settles.afterBytes {n len : Nat} {i : Instr} {lead : List Byte} {s : State}
    (e : decode (lead ++ s.bytesAtPc) = .ok (i, len))
    (h : ∀ m1, Settles n fun m => runAfterPrefix m i (s.fetched (len - lead.length) m1)) :
    Settles n fun m => afterBytes (runAfterPrefix m) lead s := by
  unfold Machine.afterBytes
  rw [e]
  exact h _

theorem Settles.row {n : Nat} {i : Instr} {s : State} (h : Settles n fun m => rowMeaning (runAfterPrefix m) i s) :
    Settles (n + 1) fun m => runAfterPrefix m i s := by
  obtain ⟨u, hu⟩ := h
  refine ⟨u, fun m hm => ?_⟩
  obtain ⟨m, rfl⟩ : ∃ k, m = k + 1 := ⟨m - 1, by omega⟩
  exact hu m (by omega)

theorem runAfterPrefix_eq_exec (m : Nat) {i : Instr} (s : State) (plain : i.isPrefixRow = false) :
    runAfterPrefix m i s = exec i s := by
  cases m <;> exact Safety.rowMeaning_eq_exec _ i s plain

theorem settles_plain {i : Instr} {s : State} (h : Ready s) (plain : i.isPrefixRow = false) :
    Settles 0 fun m => runAfterPrefix m i s := by
  obtain ⟨u, hu⟩ := exec_completes h plain
  exact ⟨u, fun m _ => (runAfterPrefix_eq_exec m s plain).trans hu⟩

/-- Bytes that begin with no index prefix form an instruction that is no prefix. -/
theorem settles_opcode {op : Byte} {s : State} (h : Ready s) (index : isIndexPrefix op = false) :
    Settles 0 fun m => afterBytes (runAfterPrefix m) [op] s := by
  obtain ⟨i, len, e, -, plain, -⟩ := reads_decode_opcode (s.memRead s.cpu.pc) (s.memRead (s.cpu.pc + 1))
    (s.memRead (s.cpu.pc + 2)) [s.memRead (s.cpu.pc + 3)] index
  exact Settles.afterBytes e fun _ => settles_plain (h.fetched ..) plain

theorem settles_indexCb (x : Idx) {s : State} (h : Ready s) :
    Settles 0 fun m => afterBytes (runAfterPrefix m) [indexByte x, 0xCB] s := by
  obtain ⟨i, len, e, -, plain, -⟩ := reads_decode_index x (op := 0xCB) (s.memRead s.cpu.pc) (s.memRead (s.cpu.pc + 1))
    [s.memRead (s.cpu.pc + 2), s.memRead (s.cpu.pc + 3)] rfl
  exact Settles.afterBytes e fun _ => settles_plain (h.fetched ..) plain

/-- A row other than a lone index prefix leads to no further prefix but its own. -/
theorem settles_row {i : Instr} {s : State} (h : Ready s) (wf : i.wf = true) (ne : ∀ x, i ≠ prefixRow x) :
    Settles 1 fun m => runAfterPrefix m i s := by
  cases row : i.isPrefixRow with
  | false => exact (settles_plain h row).mono (by decide)
  | true =>
    cases i <;> first | (cases row; done) | skip
    case prefixCb => exact Settles.row (settles_opcode (op := 0xCB) h rfl)
    case prefixEd => exact Settles.row (settles_opcode (op := 0xED) h rfl)
    case prefixDd => exact absurd rfl (ne .ix)
    case prefixFd => exact absurd rfl (ne .iy)
    case prefixIdxCb x => exact Settles.row (settles_indexCb x (h.setPfx _))
    case indexPrefixNoEffect x w =>
      have index : isIndexPrefix w = false := by simp_all [Instr.wf]
      exact Settles.row ((settles_opcode (h.setPfx _) index).withExtra 4)

/-- An instruction of two bytes or more is no lone index prefix. -/
theorem ne_prefixRow {i : Instr} {len : Nat} {a b : Byte} {bs : List Byte} (two : 2 ≤ len)
    (bytes : encode i = (a :: b :: bs).take len) (x : Idx) : i ≠ prefixRow x := by
  rintro rfl
  obtain ⟨k, rfl⟩ : ∃ k, len = k + 2 := ⟨len - 2, by omega⟩
  cases x <;> cases bytes

theorem rowMeaning_prefixRow (go : Instr → State → Out) (x : Idx) (s : State) :
    rowMeaning go (prefixRow x) s = overIndex go x s := by
  cases x <;> rfl

theorem overIndex_opcode (go : Instr → State → Out) (x : Idx) {s : State}
    (index : isIndexPrefix (s.memRead s.cpu.pc) = false) :
    overIndex go x s = afterBytes go [indexByte x] (s.setPfx (pfxOf x)) := if_neg (by rw [index]; decide)

theorem overIndex_index (go : Instr → State → Out) (x : Idx) {s : State} (index : isIndexPrefix (s.memRead s.cpu.pc) = true) :
    overIndex go x s = withExtra 4 (afterBytes go [] (s.setPfx (pfxOfFirst (s.memRead s.cpu.pc)))) := if_pos index

/-- Bytes that begin with just one index prefix lead at most to an index prefix without effect (R120, R566). -/
theorem settles_index (x : Idx) {op a b : Byte} {lead rest : List Byte} {s : State} (h : Ready s)
    (bytes : lead ++ s.bytesAtPc = indexByte x :: op :: a :: b :: rest) (index : isIndexPrefix op = false) :
    Settles 1 fun m => afterBytes (runAfterPrefix m) lead s := by
  obtain ⟨i, len, e, wf, -, two, -, enc⟩ := reads_decode_index x a b rest index
  exact Settles.afterBytes (bytes ▸ e) fun _ => settles_row (h.fetched ..) wf (ne_prefixRow two enc)

theorem settles_prefixRow (x : Idx) {s : State} (h : Ready s) (index : isIndexPrefix (s.memRead s.cpu.pc) = false) :
    Settles 2 fun m => runAfterPrefix m (prefixRow x) s := by
  refine Settles.row ?_
  simp only [rowMeaning_prefixRow, overIndex_opcode _ x index]
  exact settles_index x (h.setPfx _) rfl index

theorem incRTimes_eq (s : State) (n : Nat) : s.incRTimes n = s.setCpu { s.cpu with r := incRefresh^[n] s.cpu.r } := by
  induction n generalizing s with
  | zero => rfl
  | succ n ih => exact ih s.incR

/-- The state with `PC` past `n` more bytes and `m1` more refresh counts. -/
def afterFetch (s : State) (n m1 : Nat) : State :=
  s.setCpu { s.cpu with pc := s.cpu.pc + BitVec.ofNat 16 n, r := incRefresh^[m1] s.cpu.r }

/-- All a fetch changes (R143 to R145). -/
theorem fetched_eq (s : State) (n m1 : Nat) : s.fetched n m1 = afterFetch s n m1 := incRTimes_eq ..

theorem fetched_pc (s : State) (n m1 : Nat) : (s.fetched n m1).cpu.pc = s.cpu.pc + BitVec.ofNat 16 n := by
  rw [fetched_eq]
  rfl

/-- A chain of index prefixes settles when a byte that is none is in reach (R567). -/
theorem settles_chain (k : Nat) (x : Idx) {s : State} (h : Ready s)
    (ends : isIndexPrefix (s.memRead (s.cpu.pc + BitVec.ofNat 16 k)) = false) :
    Settles (k + 2) fun m => runAfterPrefix m (prefixRow x) s := by
  induction k generalizing x s with
  | zero => exact settles_prefixRow x h (by rwa [BitVec.add_zero] at ends)
  | succ k ih =>
    cases index : isIndexPrefix (s.memRead s.cpu.pc) with
    | false => exact (settles_prefixRow x h index).mono (by omega)
    | true =>
      obtain ⟨y, hy⟩ := exists_indexByte index
      refine Settles.row ?_
      simp only [rowMeaning_prefixRow, overIndex_index _ x index]
      refine Settles.withExtra ?_ 4
      cases next : isIndexPrefix (s.memRead (s.cpu.pc + 1)) with
      | false => exact (settles_index y (h.setPfx _) (congrArg (· :: _) hy) next).mono (by omega)
      | true =>
        have e : decode ([] ++ s.bytesAtPc) = .ok (prefixRow y, 1) := by
          rw [State.bytesAtPc, hy]
          exact decode_index_index y _ next
        refine Settles.afterBytes e fun m1 => ih y ((h.setPfx _).fetched ..) ?_
        have assoc : s.cpu.pc + BitVec.ofNat 16 1 + BitVec.ofNat 16 k = s.cpu.pc + BitVec.ofNat 16 (k + 1) := by
          rw [BitVec.add_assoc, ← BitVec.ofNat_add, Nat.add_comm]
        rw [Safety.memRead_fetched, fetched_pc]
        exact assoc ▸ ends

/-! ### What `exec` of a prefix row runs -/

theorem withExtra_zero (o : Out) : withExtra 0 o = o := by cases o <;> rfl

theorem exec_prefixCb (s : State) : exec .prefixCb s = withExtra 0 (afterBytes (runAfterPrefix prefixLimit) [0xCB] s) :=
  (withExtra_zero _).symm

theorem exec_prefixEd (s : State) : exec .prefixEd s = withExtra 0 (afterBytes (runAfterPrefix prefixLimit) [0xED] s) :=
  (withExtra_zero _).symm

theorem exec_prefixIdxCb (x : Idx) (s : State) :
    exec (.prefixIdxCb x) s = withExtra 0 (afterBytes (runAfterPrefix prefixLimit) [indexByte x, 0xCB] (s.setPfx (pfxOf x))) :=
  (withExtra_zero _).symm

theorem exec_prefixRow (x : Idx) (s : State) : exec (prefixRow x) s = overIndex (runAfterPrefix prefixLimit) x s := by
  cases x <;> rfl

theorem exec_prefixRow_index (x : Idx) {s : State} (index : isIndexPrefix (s.memRead s.cpu.pc) = true) :
    exec (prefixRow x) s =
      withExtra 4 (afterBytes (runAfterPrefix prefixLimit) [] (s.setPfx (pfxOfFirst (s.memRead s.cpu.pc)))) := by
  rw [exec_prefixRow, overIndex_index _ x index]

theorem exec_prefixRow_opcode (x : Idx) {s : State} (index : isIndexPrefix (s.memRead s.cpu.pc) = false) :
    exec (prefixRow x) s = withExtra 0 (afterBytes (runAfterPrefix prefixLimit) [indexByte x] (s.setPfx (pfxOf x))) := by
  rw [exec_prefixRow, overIndex_opcode _ x index, withExtra_zero]

theorem exec_indexPrefixNoEffect (x : Idx) {w : Byte} (s : State) (ne : w ≠ 0xED) :
    exec (.indexPrefixNoEffect x w) s =
      withExtra 4 (afterBytes (runAfterPrefix prefixLimit) [w] (s.setPfx (pfxOf x))) := by
  have pfx : (if w == 0xED then Pfx.none else pfxOf x) = pfxOf x := if_neg (by simpa using ne)
  rw [← pfx]
  rfl

theorem exec_indexPrefixNoEffect_ed (x : Idx) (s : State) :
    exec (.indexPrefixNoEffect x 0xED) s =
      withExtra 4 (afterBytes (runAfterPrefix prefixLimit) [0xED] (s.setPfx .none)) := rfl

/-- The row `row` in the state `s` runs `i` in the state `t`, at `extra` T-states more, and completes. -/
def Runs (i row : Instr) (s t : State) (extra : Nat) : Prop :=
  ∃ u, exec i t = .next u ∧ exec row s = .next { u with cycles := u.cycles + extra }

/-- Where what the bytes lead to settles within the limit, `exec` of the row is `exec` of it. -/
theorem runs_of_settles {n len k m1 extra : Nat} {i row : Instr} {lead : List Byte} {s r : State}
    (meaning : exec row s = withExtra extra (afterBytes (runAfterPrefix prefixLimit) lead r))
    (e : decode (lead ++ r.bytesAtPc) = .ok (i, len)) (left : len - lead.length = k)
    (fetches : m1Fetches (lead ++ r.bytesAtPc) len - m1Fetches lead lead.length = m1)
    (h : Settles n fun m => runAfterPrefix m i (r.fetched k m1)) (le : n ≤ prefixLimit) :
    Runs i row s (afterFetch r k m1) extra := by
  obtain ⟨u, hu⟩ := h
  rw [← fetched_eq]
  refine ⟨u, ?_, ?_⟩
  · rw [Safety.exec_eq_rowMeaning]
    exact hu (prefixLimit + 1) (by omega)
  · rw [meaning, afterBytes, e]
    simp only [left, fetches, hu prefixLimit le]
    rfl

theorem m1Fetches_opcode {op : Byte} {bs : List Byte} {len : Nat} (le : opcodeFetches op ≤ len) :
    m1Fetches (op :: bs) len = opcodeFetches op := by
  unfold opcodeFetches at *
  have pos : len ≠ 0 := by split at le <;> omega
  cases prefixed : isPrefixByte op <;> simp_all [m1Fetches]

theorem m1Fetches_one (op : Byte) : m1Fetches [op] 1 = 1 := by simp [m1Fetches]

/-- Bytes that begin with no index prefix: what they form is run. -/
theorem runs_opcode {op : Byte} {row i : Instr} {len extra : Nat} {s r : State}
    (meaning : exec row s = withExtra extra (afterBytes (runAfterPrefix prefixLimit) [op] r)) (h : Ready r)
    (index : isIndexPrefix op = false) (e : decode (op :: r.bytesAtPc) = .ok (i, len)) :
    Runs i row s (afterFetch r (len - 1) (opcodeFetches op - 1)) extra := by
  obtain ⟨_, _, e', -, plain, le, -⟩ := reads_decode_opcode (r.memRead r.cpu.pc) (r.memRead (r.cpu.pc + 1))
    (r.memRead (r.cpu.pc + 2)) [r.memRead (r.cpu.pc + 3)] index
  cases e'.symm.trans e
  refine runs_of_settles meaning e rfl ?_ (settles_plain (h.fetched ..) plain) (by decide)
  rw [List.singleton_append, m1Fetches_opcode le, List.length_singleton, m1Fetches_one]

/-- Bytes that begin with just one index prefix: what they form is run, with two M1 fetches for all of it. -/
theorem runs_index (x : Idx) {op a b : Byte} {lead rest : List Byte} {row i : Instr} {len k m1 extra : Nat} {s r : State}
    (bytes : lead ++ r.bytesAtPc = indexByte x :: op :: a :: b :: rest) (index : isIndexPrefix op = false)
    (meaning : exec row s = withExtra extra (afterBytes (runAfterPrefix prefixLimit) lead r)) (h : Ready r)
    (e : decode (lead ++ r.bytesAtPc) = .ok (i, len)) (left : len - lead.length = k)
    (own : 2 - m1Fetches lead lead.length = m1) : Runs i row s (afterFetch r k m1) extra := by
  obtain ⟨_, _, e', wf, -, two, -, enc⟩ := reads_decode_index x a b rest index
  cases e'.symm.trans (bytes ▸ e)
  refine runs_of_settles meaning e left ?_ (settles_row (h.fetched ..) wf (ne_prefixRow two enc)) (by decide)
  have prefixed : opcodeFetches (indexByte x) = 2 := by cases x <;> rfl
  rw [bytes, m1Fetches_opcode (prefixed ▸ two), prefixed, own]

theorem pfxOfFirst_index {op : Byte} (index : op = 0xDD ∨ op = 0xFD) : pfxOfFirst op = if op = 0xDD then .ix else .iy := by
  obtain rfl | rfl := index <;> rfl

/-- An index prefix decodes to its own row just when another index prefix follows (R567). -/
theorem decode_bytesAtPc_index {s : State} {i : Instr} {len : Nat} {y : Idx} (hy : s.memRead s.cpu.pc = indexByte y)
    (e : decode s.bytesAtPc = .ok (i, len)) :
    (isIndexPrefix (s.memRead (s.cpu.pc + 1)) = true ∧ i = prefixRow y ∧ len = 1) ∨
      (isIndexPrefix (s.memRead (s.cpu.pc + 1)) = false ∧ ∀ x, i ≠ prefixRow x) := by
  rw [State.bytesAtPc, hy] at e
  cases next : isIndexPrefix (s.memRead (s.cpu.pc + 1)) with
  | true =>
    cases (decode_index_index y _ next).symm.trans e
    exact .inl ⟨rfl, rfl, rfl⟩
  | false =>
    obtain ⟨_, _, e', -, -, two, -, enc⟩ := reads_decode_index y (s.memRead (s.cpu.pc + 2)) (s.memRead (s.cpu.pc + 3)) [] next
    cases e'.symm.trans e
    exact .inr ⟨rfl, ne_prefixRow two enc⟩

/-- An index prefix before just one other is ignored (R567). -/
theorem runs_ignored (x : Idx) {s : State} {i : Instr} {len : Nat} (h : Ready s)
    (index : s.memRead s.cpu.pc = 0xDD ∨ s.memRead s.cpu.pc = 0xFD) (e : decode s.bytesAtPc = .ok (i, len))
    (opcode : ∀ y, i ≠ prefixRow y) :
    Runs i (prefixRow x) s (afterFetch (s.setPfx (if s.memRead s.cpu.pc = 0xDD then .ix else .iy)) len 2) 4 := by
  have first := (isIndexPrefix_iff _).2 index
  obtain ⟨y, hy⟩ := exists_indexByte first
  obtain ⟨-, rfl, -⟩ | ⟨next, -⟩ := decode_bytesAtPc_index hy e
  · exact absurd rfl (opcode y)
  · rw [← pfxOfFirst_index index]
    exact runs_index y (lead := []) (congrArg (· :: _) hy) next (exec_prefixRow_index x first) (h.setPfx _) e rfl rfl

/-- A byte that is no index prefix, anywhere but at `PC`, ends the chain within the limit. -/
theorem chain_ends {s : State} (index : s.memRead s.cpu.pc = 0xDD ∨ s.memRead s.cpu.pc = 0xFD)
    (ends : ∃ a : Word, s.memRead a ≠ 0xDD ∧ s.memRead a ≠ 0xFD) :
    ∃ k, k + 2 ≤ prefixLimit ∧ isIndexPrefix (s.memRead (s.cpu.pc + 1 + BitVec.ofNat 16 k)) = false := by
  obtain ⟨a, ha⟩ := ends
  have ne : a ≠ s.cpu.pc := by rintro rfl; tauto
  refine ⟨(a - (s.cpu.pc + 1)).toNat, ?_, ?_⟩
  · unfold prefixLimit
    bv_omega
  · rw [BitVec.ofNat_toNat, BitVec.setWidth_eq, BitVec.add_comm, BitVec.sub_add_cancel]
    exact (not_isIndexPrefix_iff _).2 ha

/-- Of a chain of index prefixes each leads to the next one, at 4 T-states (R567). -/
theorem runs_chain (x : Idx) {s : State} {i : Instr} {len : Nat} (h : Ready s)
    (index : s.memRead s.cpu.pc = 0xDD ∨ s.memRead s.cpu.pc = 0xFD) (e : decode s.bytesAtPc = .ok (i, len))
    (lone : ∃ y, i = prefixRow y) (ends : ∃ a : Word, s.memRead a ≠ 0xDD ∧ s.memRead a ≠ 0xFD) :
    Runs i (prefixRow x) s (afterFetch (s.setPfx (if s.memRead s.cpu.pc = 0xDD then .ix else .iy)) 1 1) 4 := by
  have first := (isIndexPrefix_iff _).2 index
  obtain ⟨y, hy⟩ := exists_indexByte first
  obtain ⟨k, le, last⟩ := chain_ends index ends
  obtain ⟨-, rfl, rfl⟩ | ⟨-, opcode⟩ := decode_bytesAtPc_index hy e
  · rw [← pfxOfFirst_index index]
    have prefixed : m1Fetches s.bytesAtPc 1 = 1 := by simp [State.bytesAtPc, m1Fetches]
    refine runs_of_settles (exec_prefixRow_index x first) e rfl prefixed (settles_chain k y ((h.setPfx _).fetched ..) ?_) le
    rw [Safety.memRead_fetched, fetched_pc]
    exact last
  · obtain ⟨z, rfl⟩ := lone
    exact absurd rfl (opcode z)

/-- The opcode after an index prefix without effect is no prefix byte but ED (R119, R566). -/
theorem noEffect_opcode {x : Idx} {w : Byte} (wf : (Instr.indexPrefixNoEffect x w).wf = true) (ne : w ≠ 0xED) :
    isIndexPrefix w = false ∧ isPrefixByte w = false := by
  simp only [Instr.wf, Bool.and_eq_true, Bool.not_eq_true'] at wf
  obtain ⟨four, index⟩ := wf
  have cb : w ≠ 0xCB := by rintro rfl; cases four
  refine ⟨index, ?_⟩
  simp_all [isPrefixByte, isIndexPrefix]

/-- Settles O46: what a row leads to settles, for a chain by induction on its length, so `exec` of the row is `exec` of that. -/
theorem prefixRowsRunWhatFollows : Obligations.PrefixRowsRunWhatFollows := by
  intro s x w i len inv cap bytes own moved runs index
  have ready : Ready s := ⟨inv, cap⟩
  have own_eq : own = pfxOf x := by cases x <;> rfl
  clear_value own
  subst own_eq
  refine ⟨fun e => ?cb, fun e => ?ed, fun e => ?indexCb, fun opcode e => ?opcode, fun first e dd fd => ?ignored,
    fun first e lone ends => ?chain, fun wf ne e => ?noEffect, fun e => ?noEffectEd⟩
  case cb => exact runs_opcode (exec_prefixCb s) ready rfl e
  case ed => exact runs_opcode (exec_prefixEd s) ready rfl e
  case indexCb =>
    exact runs_index x (lead := [indexByte x, 0xCB]) rfl rfl (exec_prefixIdxCb x s) (ready.setPfx _) e rfl (by cases x <;> rfl)
  case opcode =>
    have notIndex := (not_isIndexPrefix_iff _).2 (not_or.1 opcode)
    have own : 2 - m1Fetches [indexByte x] 1 = 1 := by rw [m1Fetches_one]
    exact runs_index x rfl notIndex (exec_prefixRow_opcode x notIndex) (ready.setPfx _) e rfl own
  case ignored => exact runs_ignored x ready first e fun y => by cases y; exacts [dd, fd]
  case chain => exact runs_chain x ready first e (lone.elim (⟨.ix, ·⟩) (⟨.iy, ·⟩)) ends
  case noEffect =>
    obtain ⟨opcode, plain⟩ := noEffect_opcode wf ne
    have run := runs_opcode (exec_indexPrefixNoEffect x s ne) (ready.setPfx _) opcode e
    rw [opcodeFetches, plain] at run
    exact run
  case noEffectEd => exact runs_opcode (exec_indexPrefixNoEffect_ed x s) (ready.setPfx .none) rfl e

end Sys2Proof.Proofs
end

section
/-! One step of EMU (R140 to R162): the refresh counter and the cycle counter, the step as `exec` of the instruction at `PC`, its
completion and the one chain that never ends, and the video bytes; and the obligations about them. -/

namespace Sys2Proof.Proofs

open Machine Claims

/-! ### The refresh counter (R145, R805, R809) -/

theorem incRefresh_bitSeven (r : Byte) : (incRefresh r).getLsbD 7 = r.getLsbD 7 := by simp [incRefresh]

theorem toNat_lowSeven (v : Byte) : (v &&& 0x7F).toNat = v.toNat % 128 :=
  (BitVec.toNat_and ..).trans (Nat.and_two_pow_sub_one_eq_mod _ 7)

theorem incRefresh_lowSeven (r : Byte) : incRefresh r &&& 0x7F = (r + 1) &&& 0x7F := by
  rw [incRefresh, BitVec.and_or_distrib_right]
  simp [BitVec.and_assoc]

theorem toNat_incRefresh_mod (r : Byte) : (incRefresh r).toNat % 128 = (r.toNat + 1) % 128 := by
  rw [← toNat_lowSeven, incRefresh_lowSeven, toNat_lowSeven]
  bv_omega

theorem leaveHalt_r (s : State) : s.leaveHalt.cpu.r = s.cpu.r := by
  unfold State.leaveHalt
  split <;> rfl

theorem ulaIntAck_cpu (s : State) : s.ulaIntAck.cpu = s.cpu := by
  unfold State.ulaIntAck
  split <;> rfl

theorem enterHandler_r (s : State) (target : State → Word) (cost : Nat) : (s.enterHandler target cost).cpu.r = s.cpu.r := by
  simp [State.enterHandler, State.setPc]

theorem nmiEntry_r (s : State) : s.nmiEntry.cpu.r = incRefresh s.cpu.r := by
  rw [State.nmiEntry, enterHandler_r, State.setCpu_cpu, leaveHalt_r]

theorem intEntry_r (s : State) : s.intEntry.cpu.r = incRefresh s.cpu.r := by
  unfold State.intEntry
  cases s.cpu.im <;> dsimp only <;> rw [enterHandler_r, ulaIntAck_cpu, State.setCpu_cpu, leaveHalt_r]

theorem isPrefixByte_iff (op : Byte) : isPrefixByte op = true ↔ op = 0xCB ∨ op = 0xED ∨ op = 0xDD ∨ op = 0xFD := by
  simp [isPrefixByte, or_assoc]

theorem m1Fetches_cons {op : Byte} {len : Nat} (rest : List Byte) (pos : 1 ≤ len) :
    m1Fetches (op :: rest) len = if isPrefixByte op && decide (2 ≤ len) then 2 else 1 := if_neg (by omega)

/-- Settles O12: `IncR` is compared bit by bit and as a number, and each interrupt entry counts it once. -/
theorem refreshCounterKeepsBitSeven : Obligations.RefreshCounterKeepsBitSeven := by
  refine ⟨fun r => ⟨incRefresh_bitSeven r, toNat_incRefresh_mod r⟩, fun op rest len pos => ?fetches,
    fun s => ⟨nmiEntry_r s, intEntry_r s⟩, fun s n => ?times⟩
  case fetches => simp only [m1Fetches_cons rest pos, Bool.and_eq_true, isPrefixByte_iff, decide_eq_true_eq]
  case times =>
    rw [incRTimes_eq, incRTimes_eq]
    exact Function.iterate_succ_apply' ..

/-! ### The cycle counter (R160 to R162) -/

theorem fieldTicks_add (s : State) (n m : Nat) : (s.fieldTicks n).fieldTicks m = s.fieldTicks (n + m) := by
  induction n generalizing s with
  | zero => rw [Nat.zero_add]; rfl
  | succ n ih => rw [Nat.add_right_comm]; exact ih s.fieldTick

/-- The state with another cycle counter and frame counter. -/
def withCounter (s : State) (ts : Nat) (frames : BitVec 32) : State := { s with ts := ts, frames := frames }

theorem fieldTicks_withCounter (s : State) (ts : Nat) (frames : BitVec 32) (n : Nat) :
    (withCounter s ts frames).fieldTicks n = withCounter (s.fieldTicks n) ts frames := by
  induction n generalizing s with
  | zero => rfl
  | succ n ih => exact ih s.fieldTick

theorem counterAdvance_eq (s : State) (c : Nat) :
    s.counterAdvance c =
      withCounter (s.fieldTicks ((s.ts + c) / s.cfg.fieldModulus)) ((s.ts + c) % s.cfg.fieldModulus)
        (s.frames + BitVec.ofNat 32 ((s.ts + c) / s.cfg.fieldModulus)) :=
  fieldTicks_withCounter s ..

/-- All that an advance changes. -/
theorem counterAdvance_frame (s : State) (c : Nat) :
    s.counterAdvance c =
      { s with
        ts := (s.ts + c) % s.cfg.fieldModulus
        frames := s.frames + BitVec.ofNat 32 ((s.ts + c) / s.cfg.fieldModulus)
        soundLog := (s.counterAdvance c).soundLog
        soundFlushed := (s.counterAdvance c).soundFlushed } := by
  rw [counterAdvance_eq, Safety.fieldTicks_eq]
  rfl

@[simp] theorem counterAdvance_cfg (s : State) (c : Nat) : (s.counterAdvance c).cfg = s.cfg := by rw [counterAdvance_frame]

@[simp] theorem counterAdvance_ts (s : State) (c : Nat) : (s.counterAdvance c).ts = (s.ts + c) % s.cfg.fieldModulus := by
  rw [counterAdvance_frame]

@[simp] theorem counterAdvance_frames (s : State) (c : Nat) :
    (s.counterAdvance c).frames = s.frames + BitVec.ofNat 32 ((s.ts + c) / s.cfg.fieldModulus) := by
  rw [counterAdvance_frame]

/-- The wraps of two parts of a sum, the second counted from the residue of the first. -/
theorem add_div_residue {m : Nat} (pos : 0 < m) (a b : Nat) : a / m + (a % m + b) / m = (a + b) / m := by
  rw [← Nat.mul_add_div pos, ← Nat.add_assoc, Nat.div_add_mod]

/-- Two advances are one by the sum of their costs. -/
theorem counterAdvance_add {s : State} (pos : 0 < s.cfg.fieldModulus) (a b : Nat) :
    (s.counterAdvance a).counterAdvance b = s.counterAdvance (a + b) := by
  rw [counterAdvance_eq (s.counterAdvance a), counterAdvance_cfg, counterAdvance_ts, counterAdvance_frames, counterAdvance_eq s a,
    fieldTicks_withCounter, fieldTicks_add, counterAdvance_eq s (a + b), Nat.mod_add_mod, BitVec.add_assoc, ← BitVec.ofNat_add,
    add_div_residue pos, Nat.add_assoc]
  rfl

theorem counterAdvance_zero {s : State} (inside : s.ts < s.cfg.fieldModulus) : s.counterAdvance 0 = s := by
  rw [counterAdvance_eq, Nat.add_zero, Nat.div_eq_of_lt inside, Nat.mod_eq_of_lt inside]
  exact congrArg (withCounter s s.ts) (BitVec.add_zero _)

theorem foldl_counterAdvance (costs : List Nat) {s : State} (inside : s.ts < s.cfg.fieldModulus) :
    costs.foldl State.counterAdvance s = s.counterAdvance costs.sum := by
  have pos : 0 < s.cfg.fieldModulus := Nat.zero_lt_of_lt inside
  induction costs generalizing s with
  | nil => exact (counterAdvance_zero inside).symm
  | cons c costs ih =>
    rw [List.foldl_cons, List.sum_cons, ih, counterAdvance_add pos]
    · rw [counterAdvance_ts, counterAdvance_cfg]
      exact Nat.mod_lt _ pos
    · rwa [counterAdvance_cfg]

/-- Settles O52: advances one after the other are one advance by the total, which divides it by the modulus. -/
theorem cycleCounterWrapsExactly : Obligations.CycleCounterWrapsExactly := by
  refine ⟨fun s costs ts frames pos => ?total, fun s c pos => ⟨fun inside => ?inside, fun le lt => ?wraps⟩⟩
  case total =>
    rw [foldl_counterAdvance costs (ts ▸ pos)]
    refine ⟨?_, ?_, ?_⟩
    · rw [counterAdvance_ts, ts, Nat.zero_add]
    · rw [counterAdvance_frames, ts, frames, Nat.zero_add, zero_add, BitVec.toNat_ofNat]
    · rw [counterAdvance_ts, counterAdvance_frames]
      exact counterAdvance_frame s _
  case inside =>
    rw [counterAdvance_eq, Nat.div_eq_of_lt inside, Nat.mod_eq_of_lt inside]
    exact congrArg (withCounter s _) (BitVec.add_zero _)
  case wraps =>
    have once : (s.ts + c) / s.cfg.fieldModulus = 1 := Nat.div_eq_of_lt_le (by omega) (by omega)
    rw [counterAdvance_eq, once, Nat.mod_eq_sub_mod le, Nat.mod_eq_of_lt (by omega)]
    rfl

/-! ### The step as `exec` of the decoded instruction (R140, R141, R143 to R147) -/

theorem andThen_assoc (o : Out) (f g : State → Out) : andThen (andThen o f) g = andThen o fun t => andThen (f t) g := by
  cases o <;> rfl

/-- Once EMU is started and no action is due, a step is one `EmuCycle`. -/
theorem step_eq_emuCycle {s : State} (agenda : s.agenda = []) (started : s.draw.isSome) : step s = s.emuCycle := by
  obtain ⟨h, draw⟩ := Option.isSome_iff_exists.1 started
  rw [step, agenda, draw]

theorem stepCpu_eq_stepInstr {s : State} (nmi : s.ula.nmiPending = false) (int : s.intSample = false) :
    s.stepCpu = s.stepInstr := by
  simp [State.stepCpu, nmi, int]

theorem stepInstr_eq_runInstr {s : State} (video : s.atVideoByte = false) : s.stepInstr = s.beginInstr.runInstr := by
  simp [State.stepInstr, video]

/-- With no interrupt taken and no video byte at `PC`, a step is the run of the instruction there. -/
theorem step_eq_runInstr {s : State} (agenda : s.agenda = []) (started : s.draw.isSome) (nmi : s.ula.nmiPending = false)
    (int : s.intSample = false) (video : s.atVideoByte = false) :
    step s = andThen s.beginCycle.beginInstr.runInstr State.endCycle := by
  rw [step_eq_emuCycle agenda started, State.emuCycle, stepCpu_eq_stepInstr, stepInstr_eq_runInstr]
  exacts [video, nmi, int]

theorem runInstr_eq_exec {s : State} {i : Instr} {len : Nat} (e : decode s.bytesAtPc = .ok (i, len)) :
    s.runInstr = andThen (exec i (s.fetchedInstr len)) fun t => .next (t.setPfx .none) := by
  rw [State.runInstr, e]

/-- What stands at `PC` is a well-formed instruction of a byte or more (R110, R125). -/
theorem decode_bytesAtPc_wf {s : State} {i : Instr} {len : Nat} (e : decode s.bytesAtPc = .ok (i, len)) :
    i.wf = true ∧ 1 ≤ len := by
  obtain ⟨_, _, e', wf, pos, -⟩ := everyByteSequenceDecodes s.bytesAtPc (by simp [State.bytesAtPc])
  cases e'.symm.trans e
  exact ⟨wf, pos⟩

theorem pfxOfFirst_eq (op : Byte) : pfxOfFirst op = if op = 0xDD then .ix else if op = 0xFD then .iy else .none := by
  simp [pfxOfFirst]

/-- The state an instruction runs in, field by field (R143 to R147). -/
theorem fetchedInstr_eq (s : State) {len : Nat} (pos : 1 ≤ len) :
    s.fetchedInstr len =
      s.setCpu { s.cpu with
        pc := s.cpu.pc + BitVec.ofNat 16 len
        r := if isPrefixByte (s.memRead s.cpu.pc) && decide (2 ≤ len) then incRefresh (incRefresh s.cpu.r)
          else incRefresh s.cpu.r
        pfx := if s.memRead s.cpu.pc = 0xDD then .ix else if s.memRead s.cpu.pc = 0xFD then .iy else .none } := by
  rw [State.fetchedInstr, fetched_eq, State.bytesAtPc, m1Fetches_cons _ pos, pfxOfFirst_eq]
  split <;> rfl

/-- Settles O11: the `EmuCycle` down to the fetch, whose M1 fetches are counted from the first byte. -/
theorem stepRunsDecodedInstruction : Obligations.StepRunsDecodedInstruction := by
  intro s i len agenda started nmi int video e first r1 prefixed fetched
  have ready : s.beginCycle.beginInstr.fetchedInstr len = fetched :=
    fetchedInstr_eq s.beginCycle.beginInstr (decode_bytesAtPc_wf (s := s) e).2
  rw [step_eq_runInstr agenda started nmi int video, runInstr_eq_exec (s := s.beginCycle.beginInstr) e, ready, andThen_assoc]
  rfl

/-! ### Completion of a step (R142, R148) -/

/-- `exec` of a row whose meaning settles within the limit completes. -/
theorem exec_completes_of_settles {n : Nat} {i : Instr} {s : State} (h : Settles n fun m => runAfterPrefix m i s)
    (le : n ≤ prefixLimit + 1) : ∃ t, exec i s = .next t := by
  obtain ⟨t, settled⟩ := h
  exact ⟨t, (Safety.exec_eq_rowMeaning i s).trans (settled (prefixLimit + 1) le)⟩

theorem Ready.fetchedInstr {s : State} (h : Ready s) (len : Nat) : Ready (s.fetchedInstr len) := (h.fetched ..).setPfx _

theorem fetchedInstr_memRead (s : State) (len : Nat) (a : Word) : (s.fetchedInstr len).memRead a = s.memRead a :=
  Safety.memRead_fetched ..

theorem fetchedInstr_pc (s : State) (len : Nat) : (s.fetchedInstr len).cpu.pc = s.cpu.pc + BitVec.ofNat 16 len :=
  fetched_pc ..

theorem endCycle_completes {s : State} (h : Ready s) : ∃ t, s.endCycle = .next t := by
  obtain ⟨inv, cap⟩ := h
  have advance := Safety.syncAdvance_ok s.cycles (Safety.counterAdvance_inv s.cycles inv)
  exact andThen_completes (advance.total ((counterAdvance_cfg ..).symm ▸ cap)) fun _ => ⟨_, rfl⟩

theorem Ready.beginCycle {s : State} (h : Ready s) : Ready s.beginCycle :=
  ⟨(Safety.UlaStep.ula h.1 s.ula SyncEvent.none).inv, h.2⟩

section Completes

variable {s : State} (h : Ready s) (ends : ∃ a : Word, s.memRead a ≠ 0xDD ∧ s.memRead a ≠ 0xFD)

include h ends

/-- The instruction at `PC` completes where a byte that is no index prefix ends every chain. -/
theorem exec_fetchedInstr_completes {i : Instr} {len : Nat} (e : decode s.bytesAtPc = .ok (i, len)) :
    ∃ t, exec i (s.fetchedInstr len) = .next t := by
  cases index : isIndexPrefix (s.memRead s.cpu.pc) with
  | false =>
    obtain ⟨_, _, e', -, plain, -⟩ := reads_decode_opcode (s.memRead (s.cpu.pc + 1)) (s.memRead (s.cpu.pc + 2))
      (s.memRead (s.cpu.pc + 3)) [] index
    cases e'.symm.trans e
    exact exec_completes (h.fetchedInstr len) plain
  | true =>
    obtain ⟨y, hy⟩ := exists_indexByte index
    obtain ⟨-, rfl, rfl⟩ | ⟨-, opcode⟩ := decode_bytesAtPc_index hy e
    · obtain ⟨k, le, last⟩ := chain_ends ((isIndexPrefix_iff _).1 index) ends
      refine exec_completes_of_settles (settles_chain k y (h.fetchedInstr 1) ?_) (by omega)
      rw [fetchedInstr_memRead, fetchedInstr_pc]
      exact last
    · obtain ⟨wf, -⟩ := decode_bytesAtPc_wf e
      exact exec_completes_of_settles (settles_row (h.fetchedInstr len) wf opcode) (by decide)

theorem runInstr_completes : ∃ t, s.runInstr = .next t := by
  obtain ⟨⟨i, len⟩, e⟩ := decode_total s.bytesAtPc (by simp [State.bytesAtPc])
  rw [runInstr_eq_exec e]
  exact andThen_completes (exec_fetchedInstr_completes h ends e) fun _ => ⟨_, rfl⟩

theorem stepCpu_completes : ∃ t, s.stepCpu = .next t := by
  unfold State.stepCpu State.stepInstr
  split_ifs with nmi int video
  · exact ⟨_, rfl⟩
  · exact ⟨_, rfl⟩
  · exact ⟨_, rfl⟩
  · exact runInstr_completes (h.sameBlock ((SameBlock.refl s).setCpu _)) ends

theorem emuCycle_completes : ∃ t, s.emuCycle = .next t := by
  obtain ⟨t, e⟩ := stepCpu_completes h.beginCycle ends
  have cpu := (Safety.stepCpu_ok decode_total h.beginCycle.1).step t e
  rw [State.emuCycle, e]
  exact endCycle_completes ⟨cpu.inv, cpu.cfg ▸ h.2⟩

end Completes

theorem startUp_completes {s : State} (h : Ready s) (draw : s.draw = none) : ∃ t, s.startUp = .next t := by
  unfold State.startUp
  split
  · have out := h.1.toOut
    rw [draw] at out
    exact (Safety.freshDraw_ok out).1.total h.2
  · exact ⟨_, rfl⟩

/-- Settles O5: the start of EMU completes, and so does every part of an `EmuCycle`; a chain of index prefixes comes to its end
within the limit. -/
theorem stepNeverStops : Obligations.StepNeverStops := by
  intro s inv cap agenda ends
  cases draw : s.draw with
  | none =>
    rw [step, agenda, draw]
    exact startUp_completes ⟨inv, cap⟩ draw
  | some h =>
    rw [step_eq_emuCycle agenda (Option.isSome_of_eq_some draw)]
    exact emuCycle_completes ⟨inv, cap⟩ ends

/-! ### The endless chain (R148) -/

theorem runInstr_onlyIndexPrefixes {s : State} (only : Safety.OnlyIndexPrefixes s) :
    s.runInstr = .fault .endlessPrefixChain := by
  obtain ⟨x, hx⟩ := exists_indexByte ((isIndexPrefix_iff _).2 (only s.cpu.pc))
  have e : decode s.bytesAtPc = .ok (prefixRow x, 1) := by
    rw [State.bytesAtPc, hx]
    exact decode_index_index x _ ((isIndexPrefix_iff _).2 (only (s.cpu.pc + 1)))
  have fetched : Safety.OnlyIndexPrefixes (s.fetchedInstr 1) := fun a => (fetchedInstr_memRead s 1 a).symm ▸ only a
  rw [runInstr_eq_exec e, exec_prefixRow, Safety.overIndex_chain x _ fetched (Safety.runAfterPrefix_endless prefixLimit)]
  rfl

/-- Bit 6 of an index prefix is set (R150). -/
theorem atVideoByte_index {s : State} (index : s.memRead s.cpu.pc = 0xDD ∨ s.memRead s.cpu.pc = 0xFD) :
    s.atVideoByte = false := by
  unfold State.atVideoByte isVideoByte
  obtain h | h := index <;> rw [h] <;> exact Bool.and_false _

/-- Settles O6: with index prefixes everywhere every link of the chain leads to another prefix row; and with a byte that is none
the step completes. -/
theorem endlessPrefixChainIsStuck : Obligations.EndlessPrefixChainIsStuck := by
  refine ⟨fun s agenda started nmi int only => ?stuck, fun s inv cap agenda fault => ?only⟩
  case stuck =>
    rw [step_eq_runInstr agenda started nmi int (atVideoByte_index (only _)),
      runInstr_onlyIndexPrefixes (s := s.beginCycle.beginInstr) only]
    rfl
  case only =>
    by_contra other
    push Not at other
    obtain ⟨t, next⟩ := stepNeverStops s inv cap agenda other
    cases fault.symm.trans next

/-! ### Video bytes (R150 to R156) -/

theorem toNat_and_evenMask (v : Byte) : (v &&& 0xFE).toNat = 2 * (v.toNat / 2) := by
  have mask : v &&& (0xFE : Byte) = (v >>> 1) <<< 1 :=
    (BitVec.shiftLeft_ushiftRight (x := v) (n := 1)).symm
  have := v.isLt
  rw [mask, BitVec.toNat_shiftLeft, BitVec.toNat_ushiftRight, Nat.shiftLeft_eq, Nat.shiftRight_eq_div_pow]
  omega

theorem toNat_lowSix (v : Byte) : (v &&& 0x3F).toNat = v.toNat % 64 :=
  (BitVec.toNat_and ..).trans (Nat.and_two_pow_sub_one_eq_mod _ 6)

/-- The pattern address is the sum of its three parts, which share no bit (R152). -/
theorem patternAddr_eq_ofNat (i b : Byte) (row : BitVec 3) :
    patternAddr i b row = BitVec.ofNat 16 (i.toNat / 2 * 512 + (b.toNat % 64 * 8 + row.toNat)) := by
  have page : (joinBytes (i &&& 0xFE) 0).toNat = 2 ^ 9 * (i.toNat / 2) := by
    rw [toNat_joinBytes, toNat_and_evenMask]
    exact (Nat.zero_add _).trans (Nat.mul_assoc 256 2 _).symm
  have code : ((b &&& 0x3F).setWidth 16 <<< 3 : Word).toNat = 2 ^ 3 * (b.toNat % 64) := by
    rw [BitVec.toNat_shiftLeft, BitVec.toNat_setWidth, toNat_lowSix, Nat.shiftLeft_eq]
    omega
  have line : (row.setWidth 16).toNat = row.toNat := BitVec.toNat_setWidth_of_le (by decide)
  have := row.isLt
  apply BitVec.eq_of_toNat_eq
  rw [patternAddr, BitVec.or_assoc, BitVec.toNat_or, BitVec.toNat_or, page, code, line, ← Nat.two_pow_add_eq_or_of_lt row.isLt,
    ← Nat.two_pow_add_eq_or_of_lt (by omega), BitVec.toNat_ofNat]
  omega

theorem getLsbD_bitMask (n : Nat) {k : Nat} (hk : k < 8) : ((1 : Byte) <<< n).getLsbD k = decide (k = n) := by
  rw [show (1 : Byte) <<< n = BitVec.twoPow 8 n from rfl, BitVec.getLsbD_twoPow]
  by_cases h : k = n
  · simp [← h, hk]
  · simp [h, Ne.symm h]

/-- A byte with one bit set to `ink` (R47). -/
theorem getLsbD_setBit (v : Byte) (n : Nat) {k : Nat} (hk : k < 8) (ink : Bool) :
    (if ink then v ||| (1 : Byte) <<< n else v &&& ~~~((1 : Byte) <<< n)).getLsbD k = if k = n then ink else v.getLsbD k := by
  have mask := getLsbD_bitMask n hk
  cases ink
  · rw [if_neg Bool.false_ne_true, BitVec.getLsbD_and, BitVec.getLsbD_not, mask]
    by_cases h : k = n <;> simp [h, hk]
  · rw [if_pos rfl, BitVec.getLsbD_or, mask]
    by_cases h : k = n <;> simp [h]

/-- A byte of a pixel storage names its row and its column (R47). -/
theorem pixelByte_inj {stride a b y y' : Nat} (ha : a < stride) (hb : b < stride) (h : y' * stride + b = y * stride + a) :
    y' = y ∧ b = a := by
  have pos : 0 < stride := by omega
  have row := congrArg (· / stride) h
  have column := congrArg (· % stride) h
  simp only [Nat.mul_add_mod_self_right, Nat.mod_eq_of_lt ha, Nat.mod_eq_of_lt hb] at column
  simp only [Nat.mul_comm _ stride, Nat.mul_add_div pos, Nat.div_eq_of_lt ha, Nat.div_eq_of_lt hb, Nat.add_zero] at row
  exact ⟨row, column⟩

/-- Reading a pixel after setting one (R47). -/
theorem pixel_setPixel (m : Memory) {stride x y x' y' : Nat} (ink : Bool) (hx : x < 8 * stride) (hx' : x' < 8 * stride) :
    (m.setPixel stride x y ink).pixel stride x' y' = if x' = x ∧ y' = y then ink else m.pixel stride x' y' := by
  unfold Memory.pixel Memory.setPixel
  rw [Memory.read_write]
  by_cases same : y' * stride + x' / 8 = y * stride + x / 8
  · obtain ⟨row, byte⟩ := pixelByte_inj (by omega) (by omega) same
    rw [if_pos same, getLsbD_setBit _ _ (by omega), ← same]
    exact if_congr (by omega) rfl rfl
  · rw [if_neg same, if_neg]
    rintro ⟨rfl, rfl⟩
    exact same rfl

/-- What painting one pixel leaves, on the pixels of the buffer (R151). -/
theorem pixel_paintPixel {c : Config} (fit : c.bufW ≤ 8 * c.stride) (bx by0 : Int) (pix : Byte) (m : Memory) (k : Nat)
    {x y : Nat} (hx : x < c.bufW) (hy : y < c.bufH) :
    (paintPixel c bx by0 pix m k).pixel c.stride x y =
      if (y : Int) = by0 ∧ (x : Int) = bx + k then pix.getLsbD (7 - k) else m.pixel c.stride x y := by
  unfold paintPixel inBuffer
  split
  · next inside =>
    simp only [Bool.and_eq_true, decide_eq_true_eq] at inside
    rw [pixel_setPixel _ _ (by omega) (by omega)]
    exact if_congr (by omega) rfl rfl
  · next outside =>
    simp only [Bool.and_eq_true, decide_eq_true_eq] at outside
    rw [if_neg (by omega)]

/-- The first `n` pixels of a video byte, from left to right (R151). -/
theorem pixel_foldl_paintPixel {c : Config} (fit : c.bufW ≤ 8 * c.stride) (bx by0 : Int) (pix : Byte) (m : Memory) (n : Nat)
    {x y : Nat} (hx : x < c.bufW) (hy : y < c.bufH) :
    ((List.range n).foldl (paintPixel c bx by0 pix) m).pixel c.stride x y =
      if (y : Int) = by0 ∧ bx ≤ x ∧ (x : Int) < bx + n then pix.getLsbD (7 - ((x : Int) - bx).toNat)
      else m.pixel c.stride x y := by
  induction n with
  | zero => rw [if_neg (by omega)]; rfl
  | succ n ih =>
    rw [List.range_succ, List.foldl_append, List.foldl_cons, List.foldl_nil, pixel_paintPixel fit _ _ _ _ _ hx hy, ih]
    by_cases last : (y : Int) = by0 ∧ (x : Int) = bx + n
    · obtain ⟨row, column⟩ := last
      have : ((x : Int) - bx).toNat = n := by omega
      rw [if_pos ⟨row, column⟩, if_pos (by omega), this]
    · rw [if_neg last]
      exact if_congr (by omega) rfl rfl

/-- The draw buffer has its pixel storage (R45, R47). -/
theorem draw_lt_pix_length {s : State} {h : Nat} (inv : Safety.Inv s) (draw : s.draw = some h) : h < s.pix.length := by
  have out : s.pool.out = [h] := by rw [inv.draw, draw]; rfl
  rw [inv.storage.pixLen]
  exact Safety.lt_of_pos inv.pool (by rw [out, List.count_singleton_self]; omega)

/-- A row of the buffer has a byte for each of its pixels (R10). -/
theorem bufW_le_stride {s : State} (inv : Safety.Inv s) : s.cfg.bufW ≤ 8 * s.cfg.stride := by
  have parameters := inv.config.parameters
  simp only [Config.parametersOk, Bool.and_eq_true, decide_eq_true_eq] at parameters
  tauto

theorem atVideoByte_iff (s : State) :
    s.atVideoByte = true ↔
      (if s.cfg.m1not then 0xC000 else 0x8000) ≤ s.cpu.pc.toNat ∧ (s.memRead s.cpu.pc).getLsbD 6 = false := by
  unfold State.atVideoByte isVideoByte videoThreshold
  cases s.cfg.m1not <;> simp [BitVec.le_def]

/-- With `UDG` and colour off a video byte changes the pixels of the draw buffer only (R151, R155). -/
theorem videoByte_eq {s : State} {h : Nat} (draw : s.draw = some h) (udg : s.cfg.udg = false) (colour : s.cfg.colour = false)
    (b : Byte) (a : Word) :
    s.videoByte b a =
      { s with pix := s.pix.modify h (paintByte s.cfg s.videoColumn s.videoRow (s.videoPixels b)) } := by
  simp [State.videoByte, State.videoAttr, draw, udg, colour]

theorem videoPixels_eq {s : State} (udg : s.cfg.udg = false) (b : Byte) :
    s.videoPixels b =
      let pat := s.memRead (BitVec.ofNat 16 (s.cpu.i.toNat / 2 * 512 + (b.toNat % 64 * 8 + s.ula.row.toNat)))
      if b.getLsbD 7 then ~~~pat else pat := by
  rw [← patternAddr_eq_ofNat]
  simp [State.videoPixels, State.pattern, udg]

/-- A step at a video byte. -/
theorem stepCpu_videoByte {s : State} {h : Nat} (nmi : s.ula.nmiPending = false) (int : s.intSample = false)
    (video : s.atVideoByte = true) (draw : s.draw = some h) (udg : s.cfg.udg = false) (colour : s.cfg.colour = false) :
    s.stepCpu =
      .next
        { s with
          cpu := { s.cpu with pc := s.cpu.pc + 1, r := incRefresh s.cpu.r, eiDelay := false, pfx := .none }
          pix := s.pix.modify h (paintByte s.cfg s.videoColumn s.videoRow (s.videoPixels (s.memRead s.cpu.pc)))
          cycles := 4 } := by
  rw [stepCpu_eq_stepInstr nmi int, State.stepInstr, if_pos video, State.runVideoByte, fetched_eq, videoByte_eq]
  · rfl
  all_goals assumption

/-- Settles O13: the step paints one byte of eight pixels, and each pixel of the buffer is looked at in turn. -/
theorem videoByteStep : Obligations.VideoByteStep := by
  intro s h b inv draw nmi int udg colour hb bit6 above code pat pix bx by0
  subst hb
  have pixels : s.videoPixels (s.memRead s.cpu.pc) = pix := videoPixels_eq udg _
  refine ⟨_, stepCpu_videoByte nmi int ((atVideoByte_iff s).2 ⟨above, bit6⟩) draw udg colour, List.length_modify .., ?others,
    fun x y hx hy => ?buffer⟩
  case others =>
    intro k ne
    simp [ne.symm]
  case buffer =>
    have painted : (s.pix.modify h (paintByte s.cfg s.videoColumn s.videoRow pix)).getD h [] =
        paintByte s.cfg s.videoColumn s.videoRow pix (s.pix.getD h []) := by
      simp [draw_lt_pix_length inv draw]
    rw [pixels, painted]
    exact pixel_foldl_paintPixel (bufW_le_stride inv) bx by0 pix _ 8 hx hy

end Sys2Proof.Proofs
end

section
/-! The loads, exchanges, block transfers and block searches (R200 to R251): a register pair and its two bytes, the flags of
`LD A,I` and of the block forms, and the obligations about them. -/

namespace Sys2Proof.Proofs

open Machine Claims

/-! ### Stores that leave the register file as it was -/

/-- An instruction that only writes a byte stores it (R74). -/
theorem stores_of_exec_memWrite {i : Instr} {s : State} {n : Nat} {a : Word} {v : Byte}
    (h : exec i s = finish n (s.memWrite a v)) : Stores i s s.cpu n a v :=
  stores_of_exec (by rw [h, ← State.memWrite_setCpu]; rfl)

/-- An instruction that only writes a word stores it, low byte first (R77). -/
theorem storesWord_of_exec {i : Instr} {s : State} {n : Nat} {a w : Word} (h : exec i s = finish n (s.memWrite16 a w)) :
    StoresWord i s s.cpu n a w :=
  storesTwo_of_exec (by rw [h, ← State.memWrite_setCpu, ← State.memWrite_setCpu]; rfl)

/-! ### 8-bit loads and stores (R201 to R214) -/

/-- Settles O18: each form is one register write. -/
theorem loadByteIntoRegister : Obligations.LoadByteIntoRegister := fun s r _ n _ _ _ =>
  ⟨rfl, rfl, rfl, rfl, rfl, rfl, rfl, s.cpu.reg_setReg r n, s.cpu.reg_setReg_ne n⟩

/-- Settles O19: each form is one CPU write. -/
theorem storeByte : Obligations.StoreByte := by
  intro s r n d nn x
  refine ⟨?_, ?_, ?_, ?_, ?_, ?_, ?_⟩ <;> exact stores_of_exec_memWrite rfl

/-! ### Loads between A and I or R (R215 to R218) -/

/-- `LD A,I` and `LD A,R` share one meaning. -/
theorem accResult_loadSpecial {i : Instr} {s : State} {v : Byte} (h : exec i s = finish 9 (s.loadSpecial v)) :
    AccResult i s 9 v (fun f => FlagsAre f (v.getLsbD 7) (v == 0) (v.getLsbD 5) false (v.getLsbD 3) s.cpu.iff2 false
      (s.cpu.f.getLsbD 0)) := by
  refine accResult_of_exec h ?_
  rw [BitVec.or_assoc]
  apply flagsAre_flagsSZXY_or
  simp [FlagsAre]

/-- Settles O20: the two loads of A share one meaning, the two of I and R are one register write. -/
theorem loadInterruptAndRefresh : Obligations.LoadInterruptAndRefresh := fun _ =>
  ⟨accResult_loadSpecial rfl, accResult_loadSpecial rfl, rfl, rfl⟩

/-! ### 16-bit loads and stores (R220 to R229) -/

theorem pair_setPair (c : Cpu) (p q : Pair) (w : Word) : (c.setPair p w).pair q = if q = p then w else c.pair q := by
  cases p <;> cases q <;> simp [Cpu.setPair, Cpu.pair, Cpu.bc, Cpu.de, Cpu.hl]

theorem setHl_joinBytes (c : Cpu) (h l : Byte) : c.setHl (joinBytes h l) = { c with h := h, l := l } := by
  simp [Cpu.setHl]

theorem memWrite16_joinBytes (s : State) (a : Word) (h l : Byte) :
    s.memWrite16 a (joinBytes h l) = (s.memWrite a l).memWrite (a + 1) h := by
  simp [State.memWrite16]

/-- Settles O21: each load is one register write and each store one 16-bit write; `HL` is looked at byte by byte. -/
theorem sixteenBitLoads : Obligations.SixteenBitLoads := by
  intro s p q nn x
  refine ⟨rfl, rfl, ?loadHl, rfl, rfl, rfl, rfl, ?storeHl, storesWord_of_exec rfl, storesWord_of_exec rfl,
    pair_setPair s.cpu p q nn, ?pair⟩
  case loadHl => exact congrArg (fun c => finish 16 (s.setCpu c)) (setHl_joinBytes ..)
  case storeHl =>
    have two : StoresWord (.ldAtNnHl nn) s s.cpu 16 nn s.cpu.hl := storesWord_of_exec rfl
    rwa [StoresWord, ← loByte, ← hiByte, Cpu.hl, loByte_joinBytes, hiByte_joinBytes] at two
  case pair =>
    rw [← hiByte_eq_ofNat, ← loByte_eq_ofNat]
    rfl

/-! ### Exchanges (R239 to R243) -/

/-- Settles O23: the first three are record updates; an exchange with the stack is a 16-bit write under a register write, and the
word it gives is read before the write. -/
theorem exchangeRegisters : Obligations.ExchangeRegisters := by
  intro s x
  refine ⟨rfl, rfl, rfl, storesTwo_of_exec ?hl, storesTwo_of_exec ?idx⟩
  case hl =>
    have exchange : exec .exAtSpHl s = finish 19 ((s.memWrite16 s.cpu.sp s.cpu.hl).setHl (s.memRead16 s.cpu.sp)) := rfl
    rw [exchange, State.setHl, State.memRead16, setHl_joinBytes, Cpu.hl, memWrite16_joinBytes, State.memWrite_cpu,
      State.memWrite_cpu]
  case idx =>
    have exchange : exec (.exAtSpIdx x) s =
        finish 23 ((s.memWrite16 s.cpu.sp (s.cpu.idx x)).setIdx x (s.memRead16 s.cpu.sp)) := rfl
    rw [exchange, State.setIdx, State.memWrite16, State.memWrite_cpu, State.memWrite_cpu]
    rfl

/-! ### Block transfer and block search (R244 to R251) -/

theorem flagsAre_flagsLdBlock (f a t : Byte) (bc : Word) :
    FlagsAre (flagsLdBlock f a t bc) (f.getLsbD 7) (f.getLsbD 6) ((t + a).getLsbD 1) false ((t + a).getLsbD 3) (bc != 0) false
      (f.getLsbD 0) := by
  simp [FlagsAre, flagsLdBlock, flagsBlockXY]

/-- The half borrow of R248, as the operands show it. -/
theorem cpBlockHalf_eq (a t : Byte) : cpBlockHalf a t = decide (a.toNat % 16 < t.toNat % 16) := by
  rw [cpBlockHalf, toNat_lowDigit, toNat_lowDigit, decide_eq_decide]
  omega

theorem sub_bitIf_one (v : Byte) (c : Bool) : v - bitIf c 0x01 = if c then v - 1 else v := by
  cases c
  · exact BitVec.sub_zero v
  · rfl

theorem flagsAre_flagsCpBlock (f a t : Byte) (bc : Word) :
    FlagsAre (flagsCpBlock f a t bc) ((a - t).getLsbD 7) (a - t == 0)
      ((if cpBlockHalf a t then a - t - 1 else a - t).getLsbD 1) (cpBlockHalf a t)
      ((if cpBlockHalf a t then a - t - 1 else a - t).getLsbD 3) (bc != 0) true (f.getLsbD 0) := by
  rw [← sub_bitIf_one]
  simp [FlagsAre, flagsCpBlock, flagsBlockXY, flagsSZ]

/-- Settles O24: the four forms are one transfer and one end, at the step and the repetition of each. -/
theorem blockTransfer : Obligations.BlockTransfer := by
  intro s t bc n after moves
  have form : ∀ (i : Instr) (step : Word) (repeats : Bool),
      exec i s = finishBlock (repeats && bc != 0) (s.ldBlock step) → moves i step repeats := by
    intro i step repeats h
    refine ⟨_, stores_of_exec (h.trans ?_), flagsAre_flagsLdBlock ..⟩
    cases repeats && bc != 0 <;> rfl
  exact ⟨form .ldi 1 false rfl, form .ldd (-1) false rfl, form .ldir 1 true rfl, form .lddr (-1) true rfl⟩

/-- Settles O25: the four forms are one search and one end, at the step and the repetition of each. -/
theorem blockSearch : Obligations.BlockSearch := by
  intro s t res half bc n searches
  have form : ∀ (i : Instr) (step : Word) (repeats : Bool),
      exec i s = finishBlock (repeats && bc != 0 && res != 0) (s.cpBlock step) → searches i step repeats := by
    intro i step repeats h
    have flags := flagsAre_flagsCpBlock s.cpu.f s.cpu.a t bc
    rw [cpBlockHalf_eq] at flags
    refine ⟨_, h.trans ?_, flags⟩
    cases repeats && bc != 0 && res != 0 <;> rfl
  exact ⟨form .cpi 1 false rfl, form .cpd (-1) false rfl, form .cpir 1 true rfl, form .cpdr (-1) true rfl⟩

end Sys2Proof.Proofs
end

section
/-! What an instruction may write (R200, R300, R400, R450, R500, R550). `Within s w t` says that `t` differs from `s` by no register, flag
bit or byte of `PHYS` that `w` does not name. Every named update keeps it where `w` names what the update writes, so the frame of a row
is read off its meaning. -/

namespace Sys2Proof.Proofs

open Machine Claims

/-! ### Flag bits left alone -/

/-- `f` and `g` agree on the bits outside the mask `m`. -/
def SameBut (m f g : Byte) : Prop := f &&& ~~~m = g &&& ~~~m

theorem SameBut.all (f g : Byte) : SameBut 0xFF f g := by simp [SameBut]

theorem sameBut_iff {m f g : Byte} : SameBut m f g ↔ ∀ k : Fin 8, m.getLsbD k = false → f.getLsbD k = g.getLsbD k := by
  refine ⟨fun h k hk => ?_, fun h => BitVec.eq_of_getLsbD_eq fun k hk => ?_⟩
  · have bit := congrArg (·.getLsbD k) h
    simp_all
  · have bit := h ⟨k, hk⟩
    cases hm : m.getLsbD k <;> simp_all

theorem sameBut_carry {f g : Byte} (h : f.getLsbD 0 = g.getLsbD 0) : SameBut 0xFE f g := by
  simpa [sameBut_iff, Fin.forall_fin_succ] using h

theorem sameBut_inc8 (f v : Byte) : SameBut 0xFE (inc8 f v).2 f := by
  obtain ⟨-, -, -, -, -, -, -, carry⟩ := incFlags_inc8 f v
  exact sameBut_carry carry

theorem sameBut_dec8 (f v : Byte) : SameBut 0xFE (dec8 f v).2 f := by
  obtain ⟨-, -, -, -, -, -, -, carry⟩ := decFlags_dec8 f v
  exact sameBut_carry carry

theorem sameBut_flagsBit (f : Byte) (b : BitVec 3) (v xy : Byte) : SameBut 0xFE (flagsBit f b v xy) f :=
  sameBut_carry (by simp [flagsBit])

theorem sameBut_flagsSZXYP_or (f v : Byte) : SameBut 0xFE (flagsSZXYP v ||| (f &&& 0x01)) f :=
  sameBut_carry (by simp [flagsSZXYP, flagsSZXY, flagsSZ, flagsXY, flagsPar])

theorem sameBut_loadSpecial (f v : Byte) (pv : Bool) : SameBut 0xFE (flagsSZXY v ||| bitIf pv 0x04 ||| (f &&& 0x01)) f :=
  sameBut_carry (by simp [flagsSZXY, flagsSZ, flagsXY])

theorem sameBut_flagsCpBlock (f a t : Byte) (bc : Word) : SameBut 0xFE (flagsCpBlock f a t bc) f := by
  obtain ⟨-, -, -, -, -, -, -, carry⟩ := flagsAre_flagsCpBlock f a t bc
  exact sameBut_carry carry

theorem sameBut_flagsLdBlock (f a t : Byte) (bc : Word) : SameBut 0x3E (flagsLdBlock f a t bc) f := by
  obtain ⟨sign, zero, -, -, -, -, -, carry⟩ := flagsAre_flagsLdBlock f a t bc
  simpa [sameBut_iff, Fin.forall_fin_succ] using ⟨carry, zero, sign⟩

theorem sameBut_rotAccFlags (op : RotOp) (f v : Byte) : SameBut 0x3B (rotAccFlags op f v) f := by
  simp [sameBut_iff, Fin.forall_fin_succ, rotAccFlags]

theorem sameBut_add16 (f : Byte) (a b : Word) : SameBut 0x3B (add16 f a b).2 f := by
  simp [sameBut_iff, Fin.forall_fin_succ, add16]

theorem sameBut_scf (f any : Byte) : SameBut 0x3B ((f &&& 0xC4) ||| 0x01 ||| (any &&& 0x28)) f := by
  simp [sameBut_iff, Fin.forall_fin_succ]

theorem sameBut_ccf (f any : Byte) (c : Bool) :
    SameBut 0x3B ((f &&& 0xC4) ||| bitIf c 0x10 ||| ((f &&& 0x01) ^^^ 0x01) ||| (any &&& 0x28)) f := by
  simp [sameBut_iff, Fin.forall_fin_succ]

theorem sameBut_cpl (f a : Byte) : SameBut 0x3A ((f &&& 0xC5) ||| 0x12 ||| (a &&& 0x28)) f := by
  simp [sameBut_iff, Fin.forall_fin_succ]

theorem sameBut_daaOf (a f : Byte) : SameBut 0xFD (daaOf a f).2 f := by
  unfold daaOf
  dsimp only
  split <;> simp [sameBut_iff, Fin.forall_fin_succ, flagsSZXYP, flagsSZXY, flagsSZ, flagsXY, flagsPar]

/-! ### The register file -/

/-- The register file `d` is `c` but for the registers and flag bits that `w` names. -/
structure Keeps (w : Touch) (c d : Cpu) : Prop where
  regs : ∀ q, q ∉ w.regs → valueOf d q = valueOf c q
  flags : SameBut w.flags d.f c.f
  pfx : d.pfx = c.pfx

theorem valueOf_setReg (c : Cpu) (r : Reg8) (v : Byte) (q : RegName) :
    valueOf (c.setReg r v) q = if q = regName r then v.toNat else valueOf c q := by
  cases r <;> cases q <;> rfl

theorem valueOf_setIdx (c : Cpu) (x : Idx) (v : Word) (q : RegName) :
    valueOf (c.setIdx x v) q = if q = idxName x then v.toNat else valueOf c q := by
  cases x <;> cases q <;> rfl

theorem valueOf_setF (c : Cpu) (f : Byte) (q : RegName) : valueOf { c with f := f } q = valueOf c q := by cases q <;> rfl

theorem valueOf_setPc (c : Cpu) (v : Word) (q : RegName) :
    valueOf { c with pc := v } q = if q = .pc then v.toNat else valueOf c q := by
  cases q <;> rfl

theorem valueOf_setSp (c : Cpu) (v : Word) (q : RegName) :
    valueOf { c with sp := v } q = if q = .sp then v.toNat else valueOf c q := by
  cases q <;> rfl

theorem setReg_f (c : Cpu) (r : Reg8) (v : Byte) : (c.setReg r v).f = c.f := by cases r <;> rfl

namespace Keeps

variable {w : Touch} {c d e : Cpu}

theorem refl : Keeps w c c := ⟨fun _ _ => rfl, rfl, rfl⟩

/-- One more register written, which `w` names. -/
theorem write {n : RegName} {v : Nat} (h : Keeps w c d) (named : n ∈ w.regs)
    (he : ∀ q, valueOf e q = if q = n then v else valueOf d q) (hf : e.f = d.f) (hp : e.pfx = d.pfx) : Keeps w c e where
  regs := fun q hq => by rw [he, if_neg (ne_of_mem_of_not_mem named hq).symm, h.regs q hq]
  flags := hf ▸ h.flags
  pfx := hp.trans h.pfx

theorem setReg {r : Reg8} {v : Byte} (h : Keeps w c d) (named : regName r ∈ w.regs) : Keeps w c (d.setReg r v) :=
  h.write named (valueOf_setReg d r v) (setReg_f ..) (by cases r <;> rfl)

theorem setIdx {x : Idx} {v : Word} (h : Keeps w c d) (named : idxName x ∈ w.regs) : Keeps w c (d.setIdx x v) :=
  h.write named (valueOf_setIdx d x v) (by cases x <;> rfl) (by cases x <;> rfl)

theorem setPc {v : Word} (h : Keeps w c d) (named : .pc ∈ w.regs) : Keeps w c { d with pc := v } :=
  h.write named (valueOf_setPc d v) rfl rfl

theorem setSp {v : Word} (h : Keeps w c d) (named : .sp ∈ w.regs) : Keeps w c { d with sp := v } :=
  h.write named (valueOf_setSp d v) rfl rfl

theorem setF {f : Byte} (h : Keeps w c d) (kept : SameBut w.flags f c.f) : Keeps w c { d with f := f } :=
  ⟨fun q hq => (valueOf_setF d f q).trans (h.regs q hq), kept, h.pfx⟩

theorem setPair {p : Pair} {v : Word} (h : Keeps w c d) (named : pairNames p ⊆ w.regs) : Keeps w c (d.setPair p v) := by
  have bytes : ∀ {r q : Reg8}, pairNames p = [regName r, regName q] →
      Keeps w c ((d.setReg r (hiByte v)).setReg q (loByte v)) := fun two =>
    (h.setReg (named (two ▸ .head _))).setReg (named (two ▸ .tail _ (.head _)))
  cases p with
  | bc => exact bytes (r := .b) (q := .c) rfl
  | de => exact bytes (r := .d) (q := .e) rfl
  | hl => exact bytes (r := .h) (q := .l) rfl
  | sp => exact h.setSp (named (.head _))

theorem setHalf {x : Idx} {hf : Half} {v : Byte} (h : Keeps w c d) (named : idxName x ∈ w.regs) :
    Keeps w c (d.setHalf x hf v) := by
  cases hf <;> exact h.setIdx named

theorem setYReg {x : Idx} {r : Reg8} {v : Byte} (h : Keeps w c d) (named : yNames x r ⊆ w.regs) :
    Keeps w c (d.setYReg x r v) := by
  cases r with
  | h => exact h.setHalf (hf := .high) (v := v) (named (.head _))
  | l => exact h.setHalf (hf := .low) (v := v) (named (.head _))
  | b => exact h.setReg (r := .b) (named (.head _))
  | c => exact h.setReg (r := .c) (named (.head _))
  | d => exact h.setReg (r := .d) (named (.head _))
  | e => exact h.setReg (r := .e) (named (.head _))
  | a => exact h.setReg (r := .a) (named (.head _))

end Keeps

/-! ### The state -/

/-- `t` is `s` but for the registers, the flag bits and the bytes at the addresses that `w` names, and for what is no part of a rule's
result: the T-states, the free values, and what an input or output does to the raster and the pool. -/
structure Within (s : State) (w : Touch) (t : State) : Prop where
  cpu : Keeps w s.cpu t.cpu
  phys : ∀ p, (∀ a ∈ w.stores, s.physAddr a ≠ p) → t.phys.read p = s.phys.read p
  cfg : t.cfg = s.cfg
  pt : t.pt = s.pt
  ts : t.ts = s.ts
  frames : t.frames = s.frames
  agenda : t.agenda = s.agenda

theorem physAddr_congr {s t : State} (h : t.pt = s.pt) (a : Word) : t.physAddr a = s.physAddr a := by
  rw [State.physAddr, State.entry, h]
  rfl

namespace Within

variable {s t : State} {w : Touch}

theorem refl (s : State) : Within s w s := ⟨.refl, fun _ _ => rfl, rfl, rfl, rfl, rfl, rfl⟩

theorem setCpu {c : Cpu} (h : Within s w t) (k : Keeps w s.cpu c) : Within s w (t.setCpu c) := { h with cpu := k }

/-- An update of several registers at once; the others are looked at one by one. -/
theorem ofCpu {c : Cpu} {regs : List RegName} {m : Byte} (flags : SameBut m c.f s.cpu.f) (pfx : c.pfx = s.cpu.pfx)
    (others : ∀ q, q ∉ regs → valueOf c q = valueOf s.cpu q := by intro q; cases q <;> simp [valueOf]) :
    Within s ⟨regs, m, []⟩ (s.setCpu c) :=
  (refl s).setCpu ⟨others, flags, pfx⟩

theorem took (n : Nat) (h : Within s w t) : Within s w (t.took n) := { h with }

theorem drawn (h : Within s w t) : Within s w t.drawn := { h with }

theorem setReg {r : Reg8} {v : Byte} (h : Within s w t) (named : regName r ∈ w.regs) : Within s w (t.setReg r v) :=
  h.setCpu (h.cpu.setReg named)

theorem setPair {p : Pair} {v : Word} (h : Within s w t) (named : pairNames p ⊆ w.regs) : Within s w (t.setPair p v) :=
  h.setCpu (h.cpu.setPair named)

theorem setIdx {x : Idx} {v : Word} (h : Within s w t) (named : idxName x ∈ w.regs) : Within s w (t.setIdx x v) :=
  h.setCpu (h.cpu.setIdx named)

theorem setHalf {x : Idx} {hf : Half} {v : Byte} (h : Within s w t) (named : idxName x ∈ w.regs) :
    Within s w (t.setHalf x hf v) :=
  h.setCpu (h.cpu.setHalf named)

theorem setPc {v : Word} (h : Within s w t) (named : .pc ∈ w.regs) : Within s w (t.setPc v) := h.setCpu (h.cpu.setPc named)

theorem setSp {v : Word} (h : Within s w t) (named : .sp ∈ w.regs) : Within s w (t.setSp v) := h.setCpu (h.cpu.setSp named)

theorem setF {f : Byte} (h : Within s w t) (kept : SameBut w.flags f s.cpu.f) : Within s w (t.setF f) := h.setCpu (h.cpu.setF kept)

theorem setAF {a f : Byte} (h : Within s w t) (named : .a ∈ w.regs) (kept : SameBut w.flags f s.cpu.f) :
    Within s w (t.setAF a f) :=
  (h.setReg (r := .a) (v := a) named).setF kept

theorem memWrite {a : Word} {v : Byte} (h : Within s w t) (named : a ∈ w.stores) : Within s w (t.memWrite a v) where
  cpu := by simpa using h.cpu
  phys := fun p hp => by
    rw [t.phys_memWrite_read, physAddr_congr h.pt, if_neg fun hit => hp a named hit.2.symm, h.phys p hp]
  cfg := by simpa using h.cfg
  pt := by simpa using h.pt
  ts := by simpa using h.ts
  frames := by simpa using h.frames
  agenda := by simpa using h.agenda

theorem memWrite16 {a v : Word} (h : Within s w t) (low : a ∈ w.stores) (high : a + 1 ∈ w.stores) :
    Within s w (t.memWrite16 a v) :=
  (h.memWrite low).memWrite high

theorem push16 {v : Word} (sp : .sp ∈ w.regs) (high : s.cpu.sp - 1 ∈ w.stores) (low : s.cpu.sp - 2 ∈ w.stores) :
    Within s w (s.push16 v) := by
  rw [State.push16_eq]
  exact (((refl s).memWrite high).memWrite low).setSp sp

theorem ite {c : Prop} [Decidable c] {t u : State} (ht : c → Within s w t) (hu : ¬c → Within s w u) :
    Within s w (if c then t else u) := by
  split
  · exact ht ‹_›
  · exact hu ‹_›

/-! #### The shared operations of a call, a return and a block form -/

theorem call {target : Word} (pc : .pc ∈ w.regs) (sp : .sp ∈ w.regs) (high : s.cpu.sp - 1 ∈ w.stores)
    (low : s.cpu.sp - 2 ∈ w.stores) : Within s w (s.call target) :=
  (push16 sp high low).setPc pc

theorem doReturn (pc : .pc ∈ w.regs) (sp : .sp ∈ w.regs) : Within s w s.doReturn := ((refl s).setSp sp).setPc pc

theorem ldBlock {step : Word} (regs : [.b, .c, .d, .e, .h, .l] ⊆ w.regs) (flags : w.flags = 0x3E)
    (store : s.cpu.de ∈ w.stores) : Within s w (s.ldBlock step) := by
  refine ((refl s).memWrite store).setCpu (.setF ?_ (flags ▸ sameBut_flagsLdBlock ..))
  refine ((Keeps.refl.setPair (p := .hl) ?_).setPair (p := .de) ?_).setPair (p := .bc) ?_
  all_goals exact List.Subset.trans (by simp [pairNames]) regs

theorem cpBlock {step : Word} (regs : [.b, .c, .h, .l] ⊆ w.regs) (flags : w.flags = 0xFE) :
    Within s w (s.cpBlock step) := by
  refine (refl s).setCpu (.setF ?_ (flags ▸ sameBut_flagsCpBlock ..))
  refine (Keeps.refl.setPair (p := .hl) ?_).setPair (p := .bc) ?_
  all_goals exact List.Subset.trans (by simp [pairNames]) regs

end Within

/-! ### When `PC` may move -/

theorem mem_pcIf {b : Bool} (h : b = true) : RegName.pc ∈ pcIf b := by
  rw [pcIf, if_pos h]
  exact .head _

theorem sub_bne_zero {n : Nat} (v k : BitVec n) : (v - k != 0) = (v != k) := by
  rw [Bool.eq_iff_iff, bne_iff_ne, bne_iff_ne, ne_eq, ne_eq, sub_eq_zero]

theorem cpAgain_eq (s : State) : s.cpAgain = (s.cpu.bc != 1 && s.cpu.a != s.memRead s.cpu.hl) := by
  rw [State.cpAgain, sub_bne_zero, sub_bne_zero]

/-! ### The outcome of a row -/

/-- The row completes, and what it leaves is within `w`. -/
def Confined (s : State) (w : Touch) (o : Out) : Prop := ∃ t, o = .next t ∧ Within s w t

section Shapes

variable {s t : State} {w : Touch}

theorem Confined.finish {n : Nat} (h : Within s w t) : Confined s w (finish n t) := ⟨_, rfl, h.took n⟩

theorem Confined.ite {c : Prop} [Decidable c] {x y : Out} (hx : c → Confined s w x) (hy : ¬c → Confined s w y) :
    Confined s w (if c then x else y) := by
  split
  · exact hx ‹_›
  · exact hy ‹_›

theorem Confined.finishBlock {again : Bool} (h : Within s w t) (named : again = true → .pc ∈ w.regs) :
    Confined s w (finishBlock again t) :=
  .ite (fun repeats => .finish (h.setPc (named repeats))) (fun _ => .finish h)

theorem Confined.jumpIf {b : Bool} {n k : Nat} {target : Word} :
    Confined s ⟨pcIf b, 0, []⟩ (if b then Machine.finish n (s.setPc target) else Machine.finish k s) := by
  cases b
  · exact .finish (.refl s)
  · exact .finish ((Within.refl s).setPc (.head _))

theorem Confined.callIf {b : Bool} {n k : Nat} {target : Word} :
    Confined s ⟨if b then [.pc, .sp] else [], 0, if b then [s.cpu.sp - 1, s.cpu.sp - 2] else []⟩
      (if b then Machine.finish n (s.call target) else Machine.finish k s) := by
  cases b
  · exact .finish (.refl s)
  · exact .finish (.call (.head _) (.tail _ (.head _)) (.head _) (.tail _ (.head _)))

theorem Confined.returnIf {b : Bool} {n k : Nat} :
    Confined s ⟨if b then [.pc, .sp] else [], 0, []⟩ (if b then Machine.finish n s.doReturn else Machine.finish k s) := by
  cases b
  · exact .finish (.refl s)
  · exact .finish (.doReturn (.head _) (.tail _ (.head _)))

end Shapes

/-- Each row is the updates of its meaning, one after the other, on what its own `touch` names. -/
theorem exec_confined_plain {i : Instr} {s : State} (port : i.isPort = false) (plain : i.isPrefixRow = false) :
    Confined s (touch i s) (exec i s) := by
  have same {w : Touch} : Within s w s := .refl s
  cases i <;> first | (exact absurd port.symm Bool.false_ne_true) | (exact absurd plain.symm Bool.false_ne_true) | skip
  case nop | nopEd77 | nopEd7F | nopEdUndefined => exact .finish same
  case ldRR | ldRN | ldRAtHl | ldRAtIdx | resR | setR => exact .finish (same.setReg (.head _))
  case ldAAtBc | ldAAtDe | ldAAtNn => exact .finish (same.setReg (r := .a) (.head _))
  case ldPairNn | ldPairAtNn | incPair | decPair => exact .finish (same.setPair (List.Subset.refl _))
  case ldHlAtNn => exact .finish (same.setPair (p := .hl) (List.Subset.refl _))
  case ldIdxNn | ldIdxAtNn | incIdx | decIdx => exact .finish (same.setIdx (.head _))
  case ldHalfN | ldHalfR => exact .finish (same.setHalf (.head _))
  case ldRHalf => exact .finish (same.setCpu (Keeps.refl.setYReg (List.Subset.refl _)))
  case ldSpHl | ldSpIdx => exact .finish (same.setSp (.head _))
  case ldAtBcA | ldAtDeA | ldAtNnA | ldAtHlR | ldAtHlN | ldAtIdxR | ldAtIdxN | resAtHl | resAtIdx | setAtHl | setAtIdx =>
    exact .finish (same.memWrite (.head _))
  case ldAtNnHl | ldAtNnPair | ldAtNnIdx => exact .finish (same.memWrite16 (.head _) (.tail _ (.head _)))
  case resAtIdxR | setAtIdxR => exact .finish ((same.memWrite (.head _)).setReg (.head _))
  case pushPair | pushIdx => exact .finish (.push16 (.head _) (.head _) (.tail _ (.head _)))
  case popIdx => exact .finish ((same.setSp (.head _)).setIdx (.tail _ (.head _)))
  case popPair q =>
    cases q with
    | bc => exact .finish ((same.setSp (.head _)).setPair (p := .bc) (List.subset_cons_self ..))
    | de => exact .finish ((same.setSp (.head _)).setPair (p := .de) (List.subset_cons_self ..))
    | hl => exact .finish ((same.setSp (.head _)).setPair (p := .hl) (List.subset_cons_self ..))
    | af => exact .finish ((same.setSp (.head _)).setAF (.tail _ (.head _)) (.all ..))
  case exAtSpHl =>
    exact .finish ((same.memWrite16 (.head _) (.tail _ (.head _))).setPair (p := .hl) (List.Subset.refl _))
  case exAtSpIdx => exact .finish ((same.memWrite16 (.head _) (.tail _ (.head _))).setIdx (.head _))
  case exDeHl | exx | di | ei | halt | im0 | im1 | im2 | im0Mirror4E | im0Mirror66 | im0Mirror6E | im1Mirror | im2Mirror | ldIA
      | ldRefreshA | retn | reti | retnMirror =>
    exact .finish (.ofCpu rfl rfl)
  case exAfAf => exact .finish (.ofCpu (.all ..) rfl)
  case addAR | addAN | addAAtHl | addAAtIdx | addAHalf | adcAR | adcAN | adcAAtHl | adcAAtIdx | adcAHalf | subR | subN | subAtHl
      | subAtIdx | subHalf | sbcAR | sbcAN | sbcAAtHl | sbcAAtIdx | sbcAHalf | andR | andN | andAtHl | andAtIdx | andHalf | xorR
      | xorN | xorAtHl | xorAtIdx | xorHalf | orR | orN | orAtHl | orAtIdx | orHalf | neg | negMirror =>
    exact .finish (same.setAF (.head _) (.all ..))
  case cpR | cpN | cpAtHl | cpAtIdx | cpHalf => exact .finish (same.setF (.all ..))
  case daa => exact .finish (same.setAF (.head _) (sameBut_daaOf ..))
  case cpl => exact .finish (same.setAF (.head _) (sameBut_cpl ..))
  case scf => exact .finish (.drawn (same.setF (sameBut_scf ..)))
  case ccf => exact .finish (.drawn (same.setF (sameBut_ccf ..)))
  case ldAI | ldARefresh => exact .finish (same.setAF (.head _) (sameBut_loadSpecial ..))
  case rlca | rla | rrca | rra => exact .finish (same.setAF (.head _) (sameBut_rotAccFlags ..))
  case incR => exact .finish ((same.setReg (.head _)).setF (sameBut_inc8 ..))
  case decR => exact .finish ((same.setReg (.head _)).setF (sameBut_dec8 ..))
  case incHalf => exact .finish ((same.setHalf (.head _)).setF (sameBut_inc8 ..))
  case decHalf => exact .finish ((same.setHalf (.head _)).setF (sameBut_dec8 ..))
  case incAtHl | incAtIdx => exact .finish ((same.memWrite (.head _)).setF (sameBut_inc8 ..))
  case decAtHl | decAtIdx => exact .finish ((same.memWrite (.head _)).setF (sameBut_dec8 ..))
  case addHlPair => exact .finish ((same.setPair (p := .hl) (List.Subset.refl _)).setF (sameBut_add16 ..))
  case adcHlPair | sbcHlPair => exact .finish ((same.setPair (p := .hl) (List.Subset.refl _)).setF (.all ..))
  case addIdxPair => exact .finish ((same.setIdx (.head _)).setF (sameBut_add16 ..))
  case rlcR | rrcR | rlR | rrR | slaR | sraR | sllR | srlR => exact .finish ((same.setReg (.head _)).setF (.all ..))
  case rlcAtHl | rrcAtHl | rlAtHl | rrAtHl | slaAtHl | sraAtHl | sllAtHl | srlAtHl | rlcAtIdx | rrcAtIdx | rlAtIdx | rrAtIdx
      | slaAtIdx | sraAtIdx | sllAtIdx | srlAtIdx =>
    exact .finish ((same.memWrite (.head _)).setF (.all ..))
  case rlcAtIdxR | rrcAtIdxR | rlAtIdxR | rrAtIdxR | slaAtIdxR | sraAtIdxR | sllAtIdxR | srlAtIdxR =>
    exact .finish (.setReg (.setF (same.memWrite (.head _)) (.all ..)) (.head _))
  case rrd | rld =>
    exact .finish ((same.memWrite (.head _)).setAF (.head _) (sameBut_flagsSZXYP_or ..))
  case bitR | bitAtIdx | bitAtIdxMirror => exact .finish (same.setF (sameBut_flagsBit ..))
  case bitAtHl => exact .finish (.drawn (same.setF (sameBut_flagsBit ..)))
  case jr | jpNn | jpHl | jpIdx => exact .finish (same.setPc (.head _))
  case jrNz | jrZ | jrNc | jrC => exact .jumpIf
  case jpCcNn => exact .finish (.ite (fun taken => same.setPc (mem_pcIf taken)) (fun _ => same))
  case djnz =>
    exact .ite (fun taken =>
        .finish ((same.setReg (r := .b) (.head _)).setPc (.tail _ (mem_pcIf ((sub_bne_zero ..).symm.trans taken)))))
      (fun _ => .finish (same.setReg (r := .b) (.head _)))
  case callNn | rst => exact .finish (.call (.head _) (.tail _ (.head _)) (.head _) (.tail _ (.head _)))
  case ret => exact .finish (.doReturn (.head _) (.tail _ (.head _)))
  case callCcNn => exact .callIf
  case retCc => exact .returnIf
  case ldi | ldd => exact .finish (.ldBlock (List.Subset.refl _) rfl (.head _))
  case cpi | cpd => exact .finish (.cpBlock (List.Subset.refl _) rfl)
  case ldir | lddr =>
    exact .finishBlock (.ldBlock (List.subset_append_left ..) rfl (.head _))
      fun again => List.mem_append_right _ (mem_pcIf ((sub_bne_zero ..).symm.trans again))
  case cpir | cpdr =>
    exact .finishBlock (.cpBlock (List.subset_append_left ..) rfl)
      fun again => List.mem_append_right _ (mem_pcIf ((cpAgain_eq s).symm.trans again))

/-! ### Inputs and outputs (R500) -/

theorem Within.ula {s t u : State} {w : Touch} (h : Within s w t) (k : Safety.UlaStep t u) : Within s w u where
  cpu := by rw [k.cpu]; exact h.cpu
  phys := fun p hp => by rw [k.phys, h.phys p hp]
  cfg := k.cfg.trans h.cfg
  pt := k.pt.trans h.pt
  ts := k.ts.trans h.ts
  frames := k.frames.trans h.frames
  agenda := k.agenda.trans h.agenda

theorem soundHook_cpu (s : State) (port : Word) (v : Byte) : (s.soundHook port v).cpu = s.cpu := by
  unfold State.soundHook
  split <;> rfl

section Ports

variable {s t : State} {w : Touch}

theorem Within.soundHook {port : Word} {v : Byte} (h : Within s w t) : Within s w (t.soundHook port v) := by
  unfold State.soundHook
  split
  · exact { h with }
  · exact h

theorem Within.ioBlockFlags (h : Within s w t) (flags : w.flags = 0xFF) : Within s w t.ioBlockFlags :=
  (h.setF (flags ▸ .all ..)).drawn

theorem Within.inputFlags {v : Byte} (h : Within s w t) (flags : w.flags = 0xFE) (old : t.cpu.f = s.cpu.f) :
    Within s w (t.inputFlags v) :=
  h.setF (flags ▸ old ▸ sameBut_flagsSZXYP_or ..)

theorem portEvents_eq_next (h : Ready s) (access : PortAccess) (port : Word) (rules : List PortRule) :
    ∃ t, portEvents access port rules s = .next t ∧ Safety.UlaStep s t := by
  have ok := Safety.portEvents_ok access port rules h.1
  obtain ⟨t, e⟩ := ok.total h.2
  exact ⟨t, e, ok.step t e⟩

/-- An input hands its byte to a state with the register file as it was. -/
theorem portRead_eq_next (h : Ready s) (port : Word) (use : Byte → State → State) :
    ∃ v t, s.portRead port use = .next (use v t) ∧ Within s w t ∧ t.cpu = s.cpu := by
  obtain ⟨t, e, k⟩ := portEvents_eq_next h .read port s.cfg.portDecode
  exact ⟨_, _, by rw [State.portRead, State.portReadEvents, e]; rfl, ((Within.refl s).ula k).drawn, k.cpu⟩

theorem portWrite_eq_next (h : Ready t) (within : Within s w t) (port : Word) (v : Byte) :
    ∃ u, t.portWrite port v = .next u ∧ Within s w u ∧ u.cpu = t.cpu := by
  obtain ⟨u, e, k⟩ := portEvents_eq_next h .write port t.cfg.portDecode
  exact ⟨_, by rw [State.portWrite, State.portWriteEvents, e]; rfl, (within.ula k).soundHook, (soundHook_cpu ..).trans k.cpu⟩

theorem Confined.input {n : Nat} {port : Word} {use : Byte → State → State} (h : Ready s)
    (hu : ∀ v t, Within s w t → t.cpu = s.cpu → Within s w (use v t)) : Confined s w (input n port use s) := by
  obtain ⟨v, t, e, within, same⟩ := portRead_eq_next h port use
  rw [Machine.input, e]
  exact .finish (hu v t within same)

theorem Confined.output {n : Nat} {port : Word} {v : Byte} (h : Ready s) : Confined s w (output n port v s) := by
  obtain ⟨t, e, within, -⟩ := portWrite_eq_next h (.refl s) port v
  rw [Machine.output, e]
  exact .finish within

/-- One byte of a block input or output is done: what is left to do is the test of `B`. -/
def BlockByte (s : State) (w : Touch) (o : Out) : Prop := ∃ t, o = .next t ∧ Within s w t ∧ t.cpu.b = s.cpu.b - 1

theorem blockByte_inBlock {step : Word} (h : Ready s) (regs : [.b, .h, .l] ⊆ w.regs) (flags : w.flags = 0xFF)
    (store : s.cpu.hl ∈ w.stores) : BlockByte s w (s.inBlock step) := by
  obtain ⟨v, t, e, within, same⟩ := portRead_eq_next h s.cpu.portC (State.storeInput step)
  have written : Within s w (t.memWrite t.cpu.hl v) := within.memWrite (same ▸ store)
  refine ⟨_, e, .ioBlockFlags (written.setCpu ?_) flags, congrArg (·.b - 1) same⟩
  exact (written.cpu.setPair (p := .hl) (List.Subset.trans (by simp [pairNames]) regs)).setReg (r := .b) (regs (.head _))

theorem blockByte_outBlock {step : Word} (h : Ready s) (regs : [.b, .h, .l] ⊆ w.regs) (flags : w.flags = 0xFF) :
    BlockByte s w (s.outBlock step) := by
  have before : Within s w (s.setReg .b (s.cpu.b - 1)) := (Within.refl s).setReg (regs (.head _))
  obtain ⟨u, e, within, same⟩ := portWrite_eq_next (h.sameBlock ((SameBlock.refl s).setReg .b _)) before
    (s.setReg .b (s.cpu.b - 1)).cpu.portC (s.memRead s.cpu.hl)
  have moved : Within s w (u.setHl (s.cpu.hl + step)) :=
    within.setPair (p := .hl) (List.Subset.trans (by simp [pairNames]) regs)
  refine ⟨_, by rw [State.outBlock, e]; rfl, moved.ioBlockFlags flags, congrArg (·.b) same⟩

theorem Confined.ofBlockByte {n : Nat} {o : Out} (h : BlockByte s w o) : Confined s w (andThen o (Machine.finish n)) := by
  obtain ⟨t, rfl, within, -⟩ := h
  exact .finish within

/-- A repeating form goes back while the new `B` is not zero. -/
theorem Confined.finishIoBlock {o : Out} (h : BlockByte s w o) (named : (s.cpu.b != 1) = true → .pc ∈ w.regs) :
    Confined s w (andThen o finishIoBlock) := by
  obtain ⟨t, rfl, within, count⟩ := h
  refine .ite (fun again => .finish (within.setPc (named ?_))) (fun _ => .finish within)
  rwa [count, sub_bne_zero] at again

end Ports

theorem exec_confined_port {i : Instr} {s : State} (h : Ready s) (port : i.isPort = true) : Confined s (touch i s) (exec i s) := by
  cases i <;> first | (exact absurd port Bool.false_ne_true) | skip
  case outNA | outCR | outC0 => exact .output h
  case inAN => exact .input h fun v t within _ => within.setReg (r := .a) (.head _)
  case inRC =>
    exact .input h fun v t within same => (within.setReg (.head _)).inputFlags rfl ((setReg_f ..).trans (congrArg (·.f) same))
  case inFC => exact .input h fun v t within same => within.inputFlags rfl (congrArg (·.f) same)
  case ini | ind => exact .ofBlockByte (blockByte_inBlock h (List.Subset.refl _) rfl (.head _))
  case outi | outd => exact .ofBlockByte (blockByte_outBlock h (List.Subset.refl _) rfl)
  case inir | indr =>
    exact .finishIoBlock (blockByte_inBlock h (List.subset_append_left ..) rfl (.head _))
      fun again => List.mem_append_right _ (mem_pcIf again)
  case otir | otdr =>
    exact .finishIoBlock (blockByte_outBlock h (List.subset_append_left ..) rfl)
      fun again => List.mem_append_right _ (mem_pcIf again)

/-! ### The frame of every row -/

theorem onlyCpu_of_sameBlock {s t : State} (h : SameBlock s t) : OnlyCpu s t := by
  rw [OnlyCpu, ← h.cfg, ← h.pt, ← h.ts, ← h.frames, ← h.ula, ← h.draw, ← h.pool, ← h.pix, ← h.chroma, ← h.ev, ← h.soundLog,
    ← h.soundFlushed, ← h.renView, ← h.hostResult, ← h.agenda, ← h.renBetween]

theorem exec_confined {i : Instr} {s : State} (plain : i.isPrefixRow = false) (ready : i.isPort = true → Ready s) :
    Confined s (touch i s) (exec i s) := by
  cases port : i.isPort with
  | true => exact exec_confined_port (ready port) port
  | false => exact exec_confined_plain port plain

/-- Settles O47: a row stays within what `touch` says of it; that a plain row changes nothing outside the CPU is `SameBlock`. -/
theorem instructionFrame : Obligations.InstructionFrame := by
  intro i s plain ready
  obtain ⟨t, e, within⟩ := exec_confined plain ready
  refine ⟨t, e, within.cpu.regs, within.cpu.flags, within.cpu.pfx, within.phys, fun a other => ?read,
    ⟨within.cfg, within.pt, within.ts, within.frames, within.agenda⟩, fun port => ?only⟩
  case read => rw [State.memRead, physAddr_congr within.pt, within.phys _ other, State.memRead]
  case only =>
    obtain ⟨u, e', same⟩ := exec_quiet i s port plain
    cases e.symm.trans e'
    exact onlyCpu_of_sameBlock same

end Sys2Proof.Proofs
end

section
/-! Decimal adjust, complement, negate and carry, CPU control and the 16-bit arithmetic (R320 to R347): `DAA` as a correction of both
digits, the 16-bit flag formulas, and the obligations about them. -/

namespace Sys2Proof.Proofs

open Machine Claims

/-! ### Decimal adjust (R320) -/

/-- What `DAA` adds or subtracts: 6 for the low digit, 0x60 for the high one. -/
def daaCorrection (low high : Bool) : Nat := (if low then 6 else 0) + if high then 0x60 else 0

theorem bitIf_or_bitIf_eq_daaCorrection (low high : Bool) :
    bitIf low 0x06 ||| bitIf high 0x60 = BitVec.ofNat 8 (daaCorrection low high) := by
  cases low <;> cases high <;> rfl

theorem ite_bitIf (b p q : Bool) (m : Byte) :
    (if b then bitIf p m else bitIf q m) = bitIf (if b then p else q) m := by
  cases b <;> rfl

/-- Does `DAA` correct the low digit (R320)? -/
def daaLow (a f : Byte) : Bool := f.getLsbD 4 || decide (9 < a.toNat % 16)

/-- Does `DAA` correct the high digit (R320)? -/
def daaHigh (a f : Byte) : Bool := f.getLsbD 0 || decide (0x99 < a.toNat)

theorem daaOf_fst (a f : Byte) :
    (daaOf a f).1 = if f.getLsbD 1 then a - BitVec.ofNat 8 (daaCorrection (daaLow a f) (daaHigh a f))
      else a + BitVec.ofNat 8 (daaCorrection (daaLow a f) (daaHigh a f)) := by
  rw [← bitIf_or_bitIf_eq_daaCorrection, daaLow, ← toNat_lowDigit]
  rfl

theorem resultFlags_daaOf (a f : Byte) :
    ResultFlags (daaOf a f).1
      (if f.getLsbD 1 then f.getLsbD 4 && decide (a.toNat % 16 < 6) else decide (9 < a.toNat % 16))
      (f.getLsbD 1) (daaHigh a f) (daaOf a f).2 := by
  unfold ResultFlags
  simp only [daaOf, flagsSZXYP, BitVec.or_assoc, toNat_lowDigit, ite_bitIf]
  apply flagsAre_flagsSZXY_or
  simp [FlagsAre, flagsPar, evenParity_eq_evenOnes, daaHigh]

theorem carry_daaOf (a f : Byte) : (daaOf a f).2.getLsbD 0 = daaHigh a f := by
  obtain ⟨-, -, -, -, -, -, -, carry⟩ := resultFlags_daaOf a f
  exact carry

/-- The packed decimal of a number below 100. -/
def packedDecimal (k : Nat) : Byte := BitVec.ofNat 8 (k / 10 * 16 + k % 10)

theorem toNat_packedDecimal {k : Nat} (hk : k < 100) : (packedDecimal k).toNat = k / 10 * 16 + k % 10 := by
  rw [packedDecimal, BitVec.toNat_ofNat]
  omega

/-- A number below 100 by its two decimal digits, which are the two hexadecimal digits of its packed decimal. -/
theorem exists_decimalDigits {k : Nat} (hk : k < 100) :
    ∃ tens ones, tens < 10 ∧ ones < 10 ∧ k = 10 * tens + ones ∧ (packedDecimal k).toNat = 16 * tens + ones :=
  ⟨k / 10, k % 10, by omega, by omega, by omega, by rw [toNat_packedDecimal hk, Nat.mul_comm]⟩

/-- After `ADD A,n` of packed decimals, `DAA` corrects a digit exactly when the decimal sum carries out of it. -/
theorem daaOf_add_packedDecimal {m n : Nat} {f : Byte} (hm : m < 100) (hn : n < 100)
    (flags : AddFlags (packedDecimal m) (packedDecimal n) false f) :
    (daaOf (packedDecimal m + packedDecimal n) f).1 = packedDecimal ((m + n) % 100) ∧
      (daaOf (packedDecimal m + packedDecimal n) f).2.getLsbD 0 = decide (99 < m + n) := by
  obtain ⟨-, -, -, half, -, -, add, carry⟩ := flags
  obtain ⟨mTens, mOnes, hmt, hmo, mDigits, mPacked⟩ := exists_decimalDigits hm
  obtain ⟨nTens, nOnes, hnt, hno, nDigits, nPacked⟩ := exists_decimalDigits hn
  have low : daaLow (packedDecimal m + packedDecimal n) f = decide (9 < mOnes + nOnes) := by
    rw [daaLow, half, ← Bool.decide_or, BitVec.toNat_add, mPacked, nPacked, Bool.toNat_false]
    exact decide_eq_decide.2 (by omega)
  have high : daaHigh (packedDecimal m + packedDecimal n) f = decide (99 < m + n) := by
    rw [daaHigh, carry, ← Bool.decide_or, BitVec.toNat_add, mPacked, nPacked, Bool.toNat_false]
    exact decide_eq_decide.2 (by omega)
  refine ⟨?adjusted, (carry_daaOf ..).trans high⟩
  rw [daaOf_fst, add, low, high, if_neg Bool.false_ne_true, ← BitVec.toNat_inj, BitVec.toNat_add, BitVec.toNat_add,
    BitVec.toNat_ofNat, mPacked, nPacked, toNat_packedDecimal (Nat.mod_lt _ (by decide))]
  simp only [daaCorrection, decide_eq_true_eq]
  split_ifs <;> omega

/-- After `SUB n` of packed decimals, `DAA` corrects a digit exactly when the decimal difference borrows for it. -/
theorem daaOf_sub_packedDecimal {m n : Nat} {f : Byte} (hm : m < 100) (hn : n < 100)
    (flags : SubFlags (packedDecimal m) (packedDecimal n) false f) :
    (daaOf (packedDecimal m - packedDecimal n) f).1 = packedDecimal ((m + 100 - n) % 100) ∧
      (daaOf (packedDecimal m - packedDecimal n) f).2.getLsbD 0 = decide (m < n) := by
  obtain ⟨-, -, -, half, -, -, sub, carry⟩ := flags
  obtain ⟨mTens, mOnes, hmt, hmo, mDigits, mPacked⟩ := exists_decimalDigits hm
  obtain ⟨nTens, nOnes, hnt, hno, nDigits, nPacked⟩ := exists_decimalDigits hn
  have difference : (packedDecimal m - packedDecimal n).toNat =
      16 * mTens + mOnes + (if m < n then 256 else 0) - (16 * nTens + nOnes) := by
    rw [BitVec.toNat_sub, mPacked, nPacked]
    split_ifs <;> omega
  have low : daaLow (packedDecimal m - packedDecimal n) f = decide (mOnes < nOnes) := by
    rw [daaLow, half, ← Bool.decide_or, difference, mPacked, nPacked, Bool.toNat_false]
    exact decide_eq_decide.2 (by split_ifs <;> omega)
  have high : daaHigh (packedDecimal m - packedDecimal n) f = decide (m < n) := by
    rw [daaHigh, carry, ← Bool.decide_or, difference, mPacked, nPacked, Bool.toNat_false]
    exact decide_eq_decide.2 (by split_ifs <;> omega)
  refine ⟨?adjusted, (carry_daaOf ..).trans high⟩
  rw [daaOf_fst, sub, low, high, if_pos rfl, ← BitVec.toNat_inj, BitVec.toNat_sub, BitVec.toNat_ofNat, difference,
    toNat_packedDecimal (Nat.mod_lt _ (by decide))]
  simp only [daaCorrection, decide_eq_true_eq]
  split_ifs <;> omega

/-- `DAA` after an accumulator operation works on the result and the flags the operation left. -/
theorem andThen_daa {i : Instr} {s : State} {n : Nat} {res f : Byte} (h : Gives i s { s.cpu with a := res, f := f } n) :
    andThen (exec i s) (exec .daa) = finish 4 (((s.setAF res f).took n).setAF (daaOf res f).1 (daaOf res f).2) := by
  rw [h]
  rfl

/-- Settles O31: the adjustment is `daaOf`; after `ADD` or `SUB` of packed decimals it corrects the digits the decimal result needs. -/
theorem decimalAdjust : Obligations.DecimalAdjust := by
  refine ⟨fun s => ?adjust, fun s m n hm hn => ?packed⟩
  case adjust =>
    intro a h sub low high corr res
    have hres : (daaOf s.cpu.a s.cpu.f).1 = res := daaOf_fst ..
    rw [← hres]
    exact accResult_of_exec rfl (resultFlags_daaOf ..)
  case packed =>
    intro packed ha
    have ofImmediate {onR onN onHl onIdx onHalf} : AccForm onR onN onHl onIdx onHalf s (onN (packed n)) (packed n) 7 :=
      .inr (.inl ⟨_, rfl, rfl, rfl⟩)
    obtain ⟨f, add, addFlags⟩ := (additionToAccumulator s (.addAN (packed n)) (packed n) 7).1 ofImmediate
    obtain ⟨g, sub, subFlags⟩ := (subtractionAndComparison s (.subN (packed n)) (packed n) 7).1 ofImmediate
    rw [ha] at add addFlags sub subFlags
    exact ⟨⟨_, andThen_daa add, daaOf_add_packedDecimal hm hn addFlags⟩,
      ⟨_, andThen_daa sub, daaOf_sub_packedDecimal hm hn subFlags⟩⟩

/-! ### Complement, negate and carry (R321 to R324, R561) -/

theorem accResult_negate {i : Instr} {s : State} (h : exec i s = finish 8 s.negate) :
    AccResult i s 8 (0 - s.cpu.a) (SubFlags 0 s.cpu.a false) := by
  have res : (sub8 0 s.cpu.a false).1 = 0 - s.cpu.a := (sub8_fst ..).trans (BitVec.sub_zero _)
  rw [← res]
  exact accResult_of_exec h (subFlags_sub8 ..)

theorem subFlags_zero_overflow {a f : Byte} (flags : SubFlags 0 a false f) : f.getLsbD 2 = true ↔ a = 0x80 := by
  obtain ⟨-, -, -, -, -, overflow, -, -⟩ := flags
  rw [overflow]
  simp only [getLsbD_seven, Bool.and_eq_true, beq_iff_eq, bne_iff_ne, ne_eq, decide_eq_decide, Bool.toNat_false]
  bv_omega

theorem subFlags_zero_carry {a f : Byte} (flags : SubFlags 0 a false f) : f.getLsbD 0 = true ↔ a ≠ 0 := by
  obtain ⟨-, -, -, -, -, -, -, carry⟩ := flags
  rw [carry, decide_eq_true_iff]
  bv_omega

/-- Settles O32: `CPL`, `CCF` and `SCF` are looked at bit by bit, `NEG` and its mirrors are `SUB8` of 0 and the accumulator. -/
theorem complementNegateAndCarry : Obligations.ComplementNegateAndCarry := by
  intro s v g na any
  refine ⟨accResult_of_exec rfl ?cpl, accResult_negate rfl, accResult_negate rfl,
    fun f flags => ⟨subFlags_zero_overflow flags, subFlags_zero_carry flags⟩, ⟨_, rfl, ?ccf⟩, ⟨_, rfl, ?scf⟩⟩
  case cpl => simp [FlagsAre, g, na]
  case ccf => simp [FlagsAre, g, any, State.anyByte, Cpu.carry]
  case scf => simp [FlagsAre, g, any, State.anyByte]

/-! ### 16-bit arithmetic (R340 to R343) -/

theorem toNat_lowTwelve (w : Word) : (w &&& 0x0FFF).toNat = w.toNat % 0x1000 :=
  (BitVec.toNat_and ..).trans (Nat.and_two_pow_sub_one_eq_mod _ 12)

theorem and_wordSign_ne_zero (w : Word) : (w &&& 0x8000 != 0) = w.getLsbD 15 := by
  rw [show (0x8000 : Word) = BitVec.twoPow 16 15 from rfl, BitVec.and_twoPow]
  cases w.getLsbD 15 <;> rfl

theorem getLsbD_fifteen (w : Word) : w.getLsbD 15 = decide (0x8000 ≤ w.toNat) := BitVec.msb_eq_decide w

theorem wordToInt_eq_ite (w : Word) : w.toInt = if 0x8000 ≤ w.toNat then (w.toNat : Int) - 0x10000 else w.toNat := by
  rw [BitVec.toInt_eq_toNat_cond]; split <;> split <;> omega

theorem add16_fst (f : Byte) (a b : Word) : (add16 f a b).1 = a + b := by
  simp [add16, BitVec.ofNat_add]

theorem adc16_fst (a b : Word) (c : Bool) : (adc16 a b c).1 = a + b + BitVec.ofNat 16 c.toNat := by
  simp [adc16, BitVec.ofNat_add]

theorem sbc16_fst (a b : Word) (c : Bool) : (sbc16 a b c).1 = a - b - BitVec.ofNat 16 c.toNat := by
  simp [sbc16, Int.sub_eq_add_neg, BitVec.sub_eq_add_neg, BitVec.ofInt_add, BitVec.ofInt_neg]

/-- The overflow mask of R341: the signed sum is not the sum of the signed operands. -/
theorem adc16Overflow_eq (a b : Word) (c : Bool) :
    ((a ^^^ b ^^^ 0x8000) &&& (a ^^^ (adc16 a b c).1) &&& 0x8000 != 0) =
      decide ((adc16 a b c).1.toInt ≠ a.toInt + b.toInt + c.toInt) := by
  have signs : ((a ^^^ b ^^^ 0x8000) &&& (a ^^^ (adc16 a b c).1) &&& 0x8000 != 0) =
      (a.getLsbD 15 == b.getLsbD 15 && (adc16 a b c).1.getLsbD 15 != a.getLsbD 15) := by
    rw [and_wordSign_ne_zero, BitVec.getLsbD_and, BitVec.getLsbD_xor, BitVec.getLsbD_xor, BitVec.getLsbD_xor]
    cases a.getLsbD 15 <;> cases b.getLsbD 15 <;> cases (adc16 a b c).1.getLsbD 15 <;> rfl
  have sum : (adc16 a b c).1.toNat = (a.toNat + b.toNat + c.toNat) % 0x10000 := rfl
  have := c.toNat_le
  rw [signs, Bool.eq_iff_iff, boolToInt_eq_toNat]
  simp only [wordToInt_eq_ite, getLsbD_fifteen, Bool.and_eq_true, beq_iff_eq, bne_iff_ne, ne_eq, decide_eq_decide,
    decide_eq_true_eq]
  omega

/-- The overflow mask of R342: the signed difference is not the difference of the signed operands. -/
theorem sbc16Overflow_eq (a b : Word) (c : Bool) :
    ((a ^^^ b) &&& (a ^^^ (sbc16 a b c).1) &&& 0x8000 != 0) =
      decide ((sbc16 a b c).1.toInt ≠ a.toInt - b.toInt - c.toInt) := by
  have signs : ((a ^^^ b) &&& (a ^^^ (sbc16 a b c).1) &&& 0x8000 != 0) =
      (a.getLsbD 15 != b.getLsbD 15 && (sbc16 a b c).1.getLsbD 15 == b.getLsbD 15) := by
    rw [and_wordSign_ne_zero, BitVec.getLsbD_and, BitVec.getLsbD_xor, BitVec.getLsbD_xor]
    cases a.getLsbD 15 <;> cases b.getLsbD 15 <;> cases (sbc16 a b c).1.getLsbD 15 <;> rfl
  have difference : ((sbc16 a b c).1.toNat : Int) = ((a.toNat : Int) - b.toNat - c.toNat) % 0x10000 := by
    simp only [sbc16, BitVec.toNat_ofInt]
    omega
  have := c.toNat_le
  rw [signs, Bool.eq_iff_iff, boolToInt_eq_toNat]
  simp only [wordToInt_eq_ite, getLsbD_fifteen, Bool.and_eq_true, beq_iff_eq, bne_iff_ne, ne_eq, decide_eq_decide,
    decide_eq_true_eq]
  omega

theorem flagsAre_add16 (f : Byte) (a b : Word) :
    FlagsAre (add16 f a b).2 (f.getLsbD 7) (f.getLsbD 6) ((a + b).getLsbD 13)
      (decide (0xFFF < a.toNat % 0x1000 + b.toNat % 0x1000)) ((a + b).getLsbD 11) (f.getLsbD 2) false
      (decide (0xFFFF < a.toNat + b.toNat)) := by
  rw [← add16_fst f]
  simp only [add16, toNat_lowTwelve]
  simp [FlagsAre, hiByte]

theorem flagsAre_adc16 (a b : Word) (c : Bool) :
    let sum := a + b + BitVec.ofNat 16 c.toNat
    FlagsAre (adc16 a b c).2 (sum.getLsbD 15) (sum == 0) (sum.getLsbD 13)
      (decide (0xFFF < a.toNat % 0x1000 + b.toNat % 0x1000 + c.toNat)) (sum.getLsbD 11)
      (decide (sum.toInt ≠ a.toInt + b.toInt + c.toInt)) false (decide (0xFFFF < a.toNat + b.toNat + c.toNat)) := by
  intro sum
  rw [show sum = (adc16 a b c).1 from (adc16_fst ..).symm, ← adc16Overflow_eq]
  simp only [adc16, toNat_lowTwelve]
  simp [FlagsAre, hiByte]

theorem flagsAre_sbc16 (a b : Word) (c : Bool) :
    let dif := a - b - BitVec.ofNat 16 c.toNat
    FlagsAre (sbc16 a b c).2 (dif.getLsbD 15) (dif == 0) (dif.getLsbD 13)
      (decide (a.toNat % 0x1000 < b.toNat % 0x1000 + c.toNat)) (dif.getLsbD 11)
      (decide (dif.toInt ≠ a.toInt - b.toInt - c.toInt)) true (decide (a.toNat < b.toNat + c.toNat)) := by
  intro dif
  rw [show dif = (sbc16 a b c).1 from (sbc16_fst ..).symm, ← sbc16Overflow_eq]
  simp only [sbc16, toNat_lowTwelve, int_sub_sub_neg_iff]
  simp [FlagsAre, hiByte]

/-- Settles O34: each form writes the word and the flags of its 16-bit formula. -/
theorem sixteenBitArithmetic : Obligations.SixteenBitArithmetic := by
  intro s p x q g c cw added a b sum dif
  refine ⟨⟨_, ?addHl, flagsAre_add16 g a b⟩, ⟨_, ?addIdx, flagsAre_add16 g (s.cpu.idx x) (s.cpu.idxPair x q)⟩,
    ⟨_, ?adc, flagsAre_adc16 a b c⟩, ⟨_, ?sbc, flagsAre_sbc16 a b c⟩⟩
  case addHl => rw [← add16_fst g]; rfl
  case addIdx => rw [← add16_fst g]; rfl
  case adc => rw [show sum = (adc16 a b c).1 from (adc16_fst ..).symm]; rfl
  case sbc => rw [show dif = (sbc16 a b c).1 from (sbc16_fst ..).symm]; rfl

/-! ### CPU control (R325 to R331, R563, R565) -/

/-- Settles O33: each meaning is a record update of the register file. -/
theorem cpuControl : Obligations.CpuControl := fun _ _ =>
  ⟨rfl, rfl, rfl, rfl, rfl, rfl, rfl, rfl, rfl, rfl, rfl, rfl, rfl, rfl, rfl⟩

/-! ### Increment and decrement of a word (R344 to R347) -/

theorem ofNat_toNat_succ (w : Word) : BitVec.ofNat 16 (w.toNat + 1) = w + 1 := by bv_omega

theorem ofNat_toNat_pred (w : Word) : BitVec.ofNat 16 (w.toNat + 65535) = w - 1 := by bv_omega

/-- Settles O35: each form is one register write of the word plus or minus one. -/
theorem incrementAndDecrementWord : Obligations.IncrementAndDecrementWord := by
  intro s p x
  simp only [ofNat_toNat_succ, ofNat_toNat_pred]
  exact ⟨rfl, rfl, rfl, rfl⟩

end Sys2Proof.Proofs
end

section
/-! Rotates, shifts, digit rotates and the bit instructions (R400 to R424, R555 to R558): the results as arithmetic on the value of
the byte, the flags they leave, the operand forms of the CB table, and the obligations about them. -/

namespace Sys2Proof.Proofs

open Machine Claims

/-! ### Bytes put together by an or -/

/-- An or with a byte below the lowest bit of the other adds them. -/
theorem toNat_or_eq_add {x y : Byte} (k h : Nat) (hx : x.toNat = 2 ^ k * h) (hy : y.toNat < 2 ^ k) :
    (x ||| y).toNat = x.toNat + y.toNat := by
  rw [BitVec.toNat_or, hx, Nat.two_pow_add_eq_or_of_lt hy]

theorem toNat_bitIf (c : Bool) (m : Byte) : (bitIf c m).toNat = c.toNat * m.toNat := by
  cases c
  · exact (Nat.zero_mul _).symm
  · exact (Nat.one_mul _).symm

theorem toNat_bitSeven (v : Byte) : (v.getLsbD 7).toNat = v.toNat / 128 := by
  have := v.isLt
  rw [BitVec.getLsbD, Nat.toNat_testBit]
  omega

theorem toNat_bitZero (v : Byte) : (v.getLsbD 0).toNat = v.toNat % 2 := by
  rw [BitVec.getLsbD, Nat.toNat_testBit, Nat.pow_zero, Nat.div_one]

theorem getLsbD_zero_eq_mod (v : Byte) : v.getLsbD 0 = (v.toNat % 2 == 1) := by
  rw [← toNat_bitZero]
  cases v.getLsbD 0 <;> rfl

theorem and_bitMask (v : Byte) (b : BitVec 3) : v &&& bitMask b = bitIf (v.getLsbD b.toNat) (bitMask b) := by
  rw [show bitMask b = BitVec.twoPow 8 b.toNat from rfl, BitVec.and_twoPow]
  rfl

/-! ### Rotates and shifts as arithmetic (R401 to R411, R555) -/

/-- The result of a rotate or shift of a byte, from its value and the carry before it. -/
def rotNat (op : RotOp) (c v : Nat) : Nat :=
  match op with
  | .rlc => v * 2 % 256 + v / 128
  | .rrc => v / 2 + v % 2 * 128
  | .rl => v * 2 % 256 + c
  | .rr => v / 2 + c * 128
  | .sla => v * 2 % 256
  | .sra => v / 2 + v / 128 * 128
  | .sll => v * 2 % 256 + 1
  | .srl => v / 2

theorem toNat_shiftLeft_one (v : Byte) : (v <<< 1).toNat = v.toNat * 2 % 256 := by
  rw [BitVec.toNat_shiftLeft, Nat.shiftLeft_eq]

theorem toNat_ushiftRight_one (v : Byte) : (v >>> 1).toNat = v.toNat / 2 := by
  rw [BitVec.toNat_ushiftRight, Nat.shiftRight_eq_div_pow]

/-- To the left, with a bit shifted in. -/
theorem toNat_shiftLeft_or (v : Byte) (c : Bool) : ((v <<< 1) ||| bitIf c 0x01).toNat = v.toNat * 2 % 256 + c.toNat := by
  have shifted := toNat_shiftLeft_one v
  have bit : (bitIf c 0x01).toNat = c.toNat := (toNat_bitIf ..).trans (Nat.mul_one _)
  have := c.toNat_le
  rw [toNat_or_eq_add 1 (v.toNat % 128) (by omega) (by omega), shifted, bit]

/-- To the right, with a bit shifted in. -/
theorem toNat_ushiftRight_or (v : Byte) (c : Bool) : ((v >>> 1) ||| bitIf c 0x80).toNat = v.toNat / 2 + c.toNat * 128 := by
  have shifted := toNat_ushiftRight_one v
  have bit : (bitIf c 0x80).toNat = c.toNat * 128 := toNat_bitIf ..
  have := v.isLt
  rw [BitVec.or_comm, toNat_or_eq_add 7 c.toNat (by omega) (by omega), shifted, bit, Nat.add_comm]

theorem toNat_rotResult (op : RotOp) (c : Bool) (v : Byte) : (rotResult op c v).toNat = rotNat op c.toNat v.toNat := by
  cases op with
  | rlc => rw [rotResult, toNat_shiftLeft_or, toNat_bitSeven, rotNat]
  | rrc => rw [rotResult, toNat_ushiftRight_or, toNat_bitZero, rotNat]
  | rl => exact toNat_shiftLeft_or ..
  | rr => exact toNat_ushiftRight_or ..
  | sla => exact toNat_shiftLeft_one v
  | sra =>
    have sign : v &&& 0x80 = bitIf (v.getLsbD 7) 0x80 := and_bitMask v 7
    rw [rotResult, sign, toNat_ushiftRight_or, toNat_bitSeven, rotNat]
  | sll => exact toNat_shiftLeft_or v true
  | srl => exact toNat_ushiftRight_one v

theorem rotResult_eq_ofNat (op : RotOp) (c : Bool) (v : Byte) : rotResult op c v = BitVec.ofNat 8 (rotNat op c.toNat v.toNat) := by
  rw [← toNat_rotResult, BitVec.ofNat_toNat, BitVec.setWidth_eq]

/-! ### The flags of the rotates and shifts (R400 to R404) -/

/-- `SZXYP(res)` with the other three flags or-ed in: these are then the only ones to look at. -/
theorem resultFlags_flagsSZXYP_or {g : Byte} (res : Byte) {half n carry : Bool}
    (hg : FlagsAre g false false false half false false n carry) : ResultFlags res half n carry (flagsSZXYP res ||| g) := by
  rw [flagsSZXYP, BitVec.or_assoc]
  apply flagsAre_flagsSZXY_or
  simp_all [FlagsAre, flagsPar, evenParity_eq_evenOnes]

theorem resultFlags_rotFlags (op : RotOp) (c : Bool) (v : Byte) :
    ResultFlags (rotResult op c v) false false (rotCarry op v) (rotFlags op c v) :=
  resultFlags_flagsSZXYP_or _ (by simp [FlagsAre])

theorem flagsAre_rotAccFlags (op : RotOp) (f v : Byte) :
    FlagsAre (rotAccFlags op f v) (f.getLsbD 7) (f.getLsbD 6) ((rotResult op (f.getLsbD 0) v).getLsbD 5) false
      ((rotResult op (f.getLsbD 0) v).getLsbD 3) (f.getLsbD 2) false (rotCarry op v) := by
  simp [FlagsAre, rotAccFlags]

/-- The four rotates of the accumulator share one meaning. -/
theorem accResult_rotAcc {i : Instr} {s : State} (op : RotOp) (h : exec i s = finish 4 (s.rotAcc op)) :
    let res := rotNat op (s.cpu.f.getLsbD 0).toNat s.cpu.a.toNat
    AccResult i s 4 (BitVec.ofNat 8 res) fun f =>
      FlagsAre f (s.cpu.f.getLsbD 7) (s.cpu.f.getLsbD 6) (res.testBit 5) false (res.testBit 3) (s.cpu.f.getLsbD 2) false
        (rotCarry op s.cpu.a) := by
  intro res
  have value : (rotResult op s.cpu.carry s.cpu.a).toNat = res := toNat_rotResult ..
  rw [show BitVec.ofNat 8 res = rotResult op s.cpu.carry s.cpu.a from (rotResult_eq_ofNat ..).symm, ← value]
  exact accResult_of_exec h (flagsAre_rotAccFlags ..)

/-- Settles O36: the four forms are one rotate; its result and the bit shifted out are compared as numbers. -/
theorem rotateAccumulator : Obligations.RotateAccumulator := by
  intro s a c out
  have left : decide (128 ≤ a) = s.cpu.a.getLsbD 7 := (getLsbD_seven _).symm
  have right : (a % 2 == 1) = s.cpu.a.getLsbD 0 := (getLsbD_zero_eq_mod _).symm
  rw [left, right]
  exact ⟨accResult_rotAcc .rlc rfl, accResult_rotAcc .rl rfl, accResult_rotAcc .rrc rfl, accResult_rotAcc .rr rfl⟩

/-! ### The operand forms that write back (R400, R423, R424, R556, R557) -/

theorem setF_setReg (s : State) (r : Reg8) (v f : Byte) : (s.setReg r v).setF f = (s.setF f).setReg r v := by
  cases r <;> rfl

/-- The byte at an address replaced by `res` of it, and `F` by `flag` of it. -/
def replaceAt (s : State) (res flag : Byte → Byte) (a : Word) : State :=
  (s.memWrite a (res (s.memRead a))).setF (flag (s.memRead a))

theorem replaceAt_same_flags (s : State) (res : Byte → Byte) (a : Word) :
    replaceAt s res (fun _ => s.cpu.f) a = s.memWrite a (res (s.memRead a)) := by
  rw [replaceAt, State.memWrite_eq]
  rfl

/-- An operation of the CB table in its four forms: the operand `v` becomes `res v` and `F` becomes `flag v`, at the T-states of
R400 and R556. -/
theorem bitForms_of_exec {onR : Reg8 → Instr} {onHl : Instr} {onIdx : Idx → Byte → Instr}
    {onCopy : Idx → Byte → Reg8 → Instr} {s : State} {flags : Byte → Byte → Prop} (res flag : Byte → Byte)
    (flagsOk : ∀ v, flags v (flag v))
    (hR : ∀ r, exec (onR r) s = finish 8 ((s.setReg r (res (s.cpu.reg r))).setF (flag (s.cpu.reg r))))
    (hHl : exec onHl s = finish 15 (replaceAt s res flag s.cpu.hl))
    (hIdx : ∀ x d, exec (onIdx x d) s = finish 23 (replaceAt s res flag (s.cpu.idxAddr x d)))
    (hCopy : ∀ x d r, exec (onCopy x d r) s =
      finish 23 ((replaceAt s res flag (s.cpu.idxAddr x d)).setReg r (res (s.memRead (s.cpu.idxAddr x d))))) :
    BitForms onR onHl onIdx onCopy res flags s := by
  refine ⟨fun r => ⟨_, hR r, flagsOk _⟩, ⟨_, stores_of_exec_setF hHl, flagsOk _⟩,
    fun x d => ⟨_, stores_of_exec_setF (hIdx x d), flagsOk _⟩, fun x d r => ⟨_, stores_of_exec ?copy, flagsOk _⟩⟩
  case copy =>
    rw [hCopy, replaceAt, ← setF_setReg, State.setF, State.setReg_cpu, State.memWrite_cpu]
    rfl

/-- A rotate or shift in its four forms. That each form is that operation is read off `exec`. -/
theorem bitForms_rot {onR : Reg8 → Instr} {onHl : Instr} {onIdx : Idx → Byte → Instr} {onCopy : Idx → Byte → Reg8 → Instr}
    {s : State} (op : RotOp)
    (hR : ∀ r, exec (onR r) s = finish 8 (s.rotReg op r) := by intros; rfl)
    (hHl : exec onHl s = finish 15 (s.rotAt op s.cpu.hl) := by rfl)
    (hIdx : ∀ x d, exec (onIdx x d) s = finish 23 (s.rotAt op (s.cpu.idxAddr x d)) := by intros; rfl)
    (hCopy : ∀ x d r, exec (onCopy x d r) s = finish 23 (s.rotAtCopy op (s.cpu.idxAddr x d) r) := by intros; rfl) :
    let res := fun v : Byte => BitVec.ofNat 8 (rotNat op (s.cpu.f.getLsbD 0).toNat v.toNat)
    BitForms onR onHl onIdx onCopy res (fun v f => ResultFlags (res v) false false (rotCarry op v) f) s := by
  intro res
  rw [show res = rotResult op s.cpu.carry from funext fun v => (rotResult_eq_ofNat ..).symm]
  exact bitForms_of_exec _ _ (resultFlags_rotFlags op s.cpu.carry) hR hHl hIdx hCopy

/-- Settles O37: each operation is its arithmetic in all four forms. -/
theorem rotateAndShift : Obligations.RotateAndShift := fun _ =>
  ⟨bitForms_rot .rlc, bitForms_rot .rl, bitForms_rot .sla, bitForms_rot .sll, bitForms_rot .rrc, bitForms_rot .rr,
    bitForms_rot .sra, bitForms_rot .srl⟩

/-! ### Set and reset (R423, R424, R557) -/

/-- `SET b` and `RES b` in their four forms, which leave `F` as it was. -/
theorem bitForms_noFlags {onR : Reg8 → Instr} {onHl : Instr} {onIdx : Idx → Byte → Instr}
    {onCopy : Idx → Byte → Reg8 → Instr} {s : State} (res : Byte → Byte)
    (hR : ∀ r, exec (onR r) s = finish 8 (s.setReg r (res (s.cpu.reg r))) := by intros; rfl)
    (hHl : exec onHl s = finish 15 (s.memWrite s.cpu.hl (res (s.memRead s.cpu.hl))) := by rfl)
    (hIdx : ∀ x d, exec (onIdx x d) s =
      finish 23 (s.memWrite (s.cpu.idxAddr x d) (res (s.memRead (s.cpu.idxAddr x d)))) := by intros; rfl)
    (hCopy : ∀ x d r, exec (onCopy x d r) s =
      finish 23 (s.writeCopy (s.cpu.idxAddr x d) r (res (s.memRead (s.cpu.idxAddr x d)))) := by intros; rfl) :
    BitForms onR onHl onIdx onCopy res (fun _ f => f = s.cpu.f) s := by
  refine bitForms_of_exec res (fun _ => s.cpu.f) (fun _ => rfl) (fun r => ?reg) ?hl (fun x d => ?idx) (fun x d r => ?copy)
  case reg => rw [hR, setF_setReg]; rfl
  case hl => rw [hHl, replaceAt_same_flags]
  case idx => rw [hIdx, replaceAt_same_flags]
  case copy => rw [hCopy, replaceAt_same_flags, State.writeCopy]

theorem getLsbD_setBit_eq_or (b : BitVec 3) (v : Byte) {k : Nat} (hk : k < 8) :
    (setBit b v).getLsbD k = (v.getLsbD k || decide (k = b.toNat)) := by
  rw [setBit, bitMask, BitVec.getLsbD_or, getLsbD_bitMask _ hk]

theorem getLsbD_resetBit_eq_and (b : BitVec 3) (v : Byte) {k : Nat} (hk : k < 8) :
    (resetBit b v).getLsbD k = (v.getLsbD k && decide (k ≠ b.toNat)) := by
  rw [resetBit, bitMask, BitVec.getLsbD_and, BitVec.getLsbD_not, getLsbD_bitMask _ hk, decide_eq_true hk, Bool.true_and,
    decide_not]

/-- Settles O40: both operations in their four forms, and the bits of the two results. -/
theorem setAndResetBit : Obligations.SetAndResetBit :=
  ⟨fun _ b => ⟨bitForms_noFlags (setBit b), bitForms_noFlags (resetBit b)⟩,
    fun b v _ hk => ⟨getLsbD_setBit_eq_or b v hk, getLsbD_resetBit_eq_and b v hk⟩⟩

/-! ### Digit rotates (R412, R413) -/

theorem toNat_highDigit (v : Byte) : (v &&& 0xF0).toNat = 16 * (v.toNat / 16) := by
  have mask : v &&& (0xF0 : Byte) = (v >>> 4) <<< 4 := (BitVec.shiftLeft_ushiftRight (x := v) (n := 4)).symm
  have := v.isLt
  rw [mask, BitVec.toNat_shiftLeft, BitVec.toNat_ushiftRight, Nat.shiftLeft_eq, Nat.shiftRight_eq_div_pow]
  omega

theorem toNat_ushiftRight_four (v : Byte) : (v >>> 4).toNat = v.toNat / 16 := by
  rw [BitVec.toNat_ushiftRight, Nat.shiftRight_eq_div_pow]

theorem toNat_shiftLeft_four (v : Byte) : (v <<< 4).toNat = 16 * (v.toNat % 16) := by
  rw [BitVec.toNat_shiftLeft, Nat.shiftLeft_eq]
  omega

/-- A byte of two digits. -/
theorem or_eq_ofNat_digits {x y : Byte} {high low : Nat} (hx : x.toNat = 16 * high) (hy : y.toNat = low) (hlow : low < 16) :
    x ||| y = BitVec.ofNat 8 (high * 16 + low) := by
  have sum := toNat_or_eq_add (x := x) (y := y) 4 high hx (by omega)
  rw [← BitVec.toNat_inj, BitVec.toNat_ofNat, sum, hx, hy]
  omega

theorem lowDigit_lt (v : Byte) : v.toNat % 16 < 16 := Nat.mod_lt _ (by decide)

theorem highDigit_lt (v : Byte) : v.toNat / 16 < 16 := by
  have := v.isLt
  omega

theorem rldA_eq_ofNat (a t : Byte) : rldA a t = BitVec.ofNat 8 (a.toNat / 16 * 16 + t.toNat / 16) :=
  or_eq_ofNat_digits (toNat_highDigit a) (toNat_ushiftRight_four t) (highDigit_lt t)

theorem rrdA_eq_ofNat (a t : Byte) : rrdA a t = BitVec.ofNat 8 (a.toNat / 16 * 16 + t.toNat % 16) :=
  or_eq_ofNat_digits (toNat_highDigit a) (toNat_lowDigit t) (lowDigit_lt t)

theorem rldByte_eq_ofNat (a t : Byte) : (t <<< 4) ||| (a &&& 0x0F) = BitVec.ofNat 8 (t.toNat % 16 * 16 + a.toNat % 16) :=
  or_eq_ofNat_digits (toNat_shiftLeft_four t) (toNat_lowDigit a) (lowDigit_lt a)

theorem rrdByte_eq_ofNat (a t : Byte) : (a <<< 4) ||| (t >>> 4) = BitVec.ofNat 8 (a.toNat % 16 * 16 + t.toNat / 16) :=
  or_eq_ofNat_digits (toNat_shiftLeft_four a) (toNat_ushiftRight_four t) (highDigit_lt t)

theorem resultFlags_flagsDigit (f a : Byte) : ResultFlags a false false (f.getLsbD 0) (flagsDigit f a) :=
  resultFlags_flagsSZXYP_or _ (by simp [FlagsAre])

/-- An instruction that writes a byte and sets `A` and `F` stores that byte (R74). -/
theorem stores_of_exec_setAF {i : Instr} {s : State} {na f : Byte} {n : Nat} {a : Word} {v : Byte}
    (h : exec i s = finish n ((s.memWrite a v).setAF na f)) : Stores i s { s.cpu with a := na, f := f } n a v :=
  stores_of_exec (by rw [h, State.setAF, State.memWrite_cpu])

/-- Settles O38: both forms write a byte and `A`, each put together from two digits. -/
theorem digitRotate : Obligations.DigitRotate := by
  intro s a t rotated
  have form : ∀ (i : Instr) (na nt : Byte) (aNat tNat : Nat), na = BitVec.ofNat 8 aNat → nt = BitVec.ofNat 8 tNat →
      exec i s = finish 18 ((s.memWrite s.cpu.hl nt).setAF na (flagsDigit s.cpu.f na)) → rotated i aNat tNat := by
    rintro i _ _ aNat tNat rfl rfl h
    exact ⟨_, stores_of_exec_setAF h, resultFlags_flagsDigit ..⟩
  exact ⟨form .rld _ _ _ _ (rldA_eq_ofNat ..) (rldByte_eq_ofNat ..) rfl,
    form .rrd _ _ _ _ (rrdA_eq_ofNat ..) (rrdByte_eq_ofNat ..) rfl⟩

/-! ### Bit test (R420 to R422, R558) -/

theorem and_bitMask_beq_zero (v : Byte) (b : BitVec 3) : (v &&& bitMask b == 0) = !v.getLsbD b.toNat := by
  have mask : ∀ b : BitVec 3, bitMask b ≠ 0 := by decide
  rw [and_bitMask]
  cases v.getLsbD b.toNat
  · rfl
  · exact beq_false_of_ne (mask b)

theorem flagsAre_flagsBit (f : Byte) (b : BitVec 3) (v xy : Byte) :
    FlagsAre (flagsBit f b v xy) (b == 7 && v.getLsbD 7) (!v.getLsbD b.toNat) (xy.getLsbD 5) true (xy.getLsbD 3)
      (!v.getLsbD b.toNat) false (f.getLsbD 0) := by
  have sign : (b == 7 && v &&& bitMask b != 0) = (b == 7 && v.getLsbD 7) := by
    rw [bne, and_bitMask_beq_zero, Bool.not_not]
    by_cases h : b = 7
    · rw [h]; rfl
    · rw [beq_false_of_ne h, Bool.false_and, Bool.false_and]
  unfold flagsBit
  rw [sign, and_bitMask_beq_zero]
  simp [FlagsAre]

/-- Settles O39: each form is one bit test, whose flags are read off its formula. -/
theorem bitTest : Obligations.BitTest := fun _ _ _ _ _ =>
  ⟨⟨_, rfl, flagsAre_flagsBit ..⟩, ⟨_, rfl, flagsAre_flagsBit ..⟩, ⟨_, rfl, flagsAre_flagsBit ..⟩,
    ⟨_, rfl, flagsAre_flagsBit ..⟩⟩

end Sys2Proof.Proofs
end

section
/-! Jumps, calls and returns (R451 to R467, R562): relative and restart targets as numbers, the two outcomes of a conditional
instruction, a call as two stored bytes, and the obligations about them. -/

namespace Sys2Proof.Proofs

open Machine Claims

/-! ### Targets (R118, R467) -/

theorem relTarget_eq_ofInt (c : Cpu) (e : Byte) : c.relTarget e = BitVec.ofInt 16 ((c.pc.toNat : Int) + e.toInt) := by
  rw [BitVec.ofInt_add, BitVec.ofInt_natCast, BitVec.ofNat_toNat, BitVec.setWidth_eq]
  rfl

theorem restartTarget_eq_ofNat (t : BitVec 3) : restartTarget t = BitVec.ofNat 16 (t.toNat * 8) := by
  decide +revert

/-! ### Conditional instructions (R115) -/

/-- The two outcomes of an instruction that writes one register file when a condition holds and another when it fails. -/
theorem gives_of_exec_ite {i : Instr} {s : State} {p : Prop} {b : Bool} {c d : Cpu} {n k : Nat} (cond : p ↔ b = true)
    (h : exec i s = if b then finish n (s.setCpu c) else finish k (s.setCpu d)) :
    (p → Gives i s c n) ∧ (¬p → Gives i s d k) :=
  ⟨fun holds => h.trans (if_pos (cond.1 holds)), fun fails => h.trans (if_neg fun hb => fails (cond.2 hb))⟩

/-! ### Jumps (R451 to R460) -/

/-- The conditional `JR` forms share one meaning (R454 to R457). -/
theorem gives_jumpRel_ite {i : Instr} {s : State} {p : Prop} {cc : Cond} {e : Byte} (cond : p ↔ s.cpu.holds cc = true)
    (h : exec i s = if s.cpu.holds cc then finish 12 (s.jumpRel e) else finish 7 s) :
    (p → Gives i s { s.cpu with pc := BitVec.ofInt 16 ((s.cpu.pc.toNat : Int) + e.toInt) } 12) ∧
      (¬p → Gives i s s.cpu 7) := by
  rw [← relTarget_eq_ofInt]
  exact gives_of_exec_ite cond h

/-- Settles O42: each form is one write of `PC`, under its condition where it has one; `DJNZ` tests the new `B`, which is zero
exactly when the old one is 1. -/
theorem jumps : Obligations.Jumps := by
  intro s e nn cc x f rel holds jr
  have cond : holds ↔ s.cpu.holds cc = true := by
    cases cc <;> simp [holds, f, Cpu.holds]
  have clear (k : Nat) : f.getLsbD k = false ↔ (!f.getLsbD k) = true := .of_eq (Bool.not_eq_true' _).symm
  have target : rel = s.cpu.relTarget e := (relTarget_eq_ofInt s.cpu e).symm
  have jp := gives_of_exec_ite (i := .jpCcNn cc nn) (d := s.cpu) cond (apply_ite (finish 10) ..)
  have djnz := gives_of_exec_ite (i := .djnz e) (s := s) (p := s.cpu.b ≠ 1) (by rw [sub_bne_zero, bne_iff_ne]) rfl
  refine ⟨rfl, jp.1, jp.2, rfl, rfl, ?jr, gives_jumpRel_ite (cc := .c) .rfl rfl, gives_jumpRel_ite (cc := .nc) (clear 0) rfl,
    gives_jumpRel_ite (cc := .z) .rfl rfl, gives_jumpRel_ite (cc := .nz) (clear 6) rfl, ?taken, fun one => ?notTaken⟩
  case jr => rw [target]; rfl
  case taken => rw [target]; exact djnz.1
  case notTaken =>
    have zero : s.cpu.b - 1 = 0 := by rw [one]; rfl
    rw [← zero]
    exact djnz.2 (not_not.2 one)

/-! ### Calls and returns (R461 to R467, R562) -/

/-- A call pushes `PC` and goes to its target. -/
theorem pushes_of_exec_call {i : Instr} {s : State} {n : Nat} {target : Word} (h : exec i s = finish n (s.call target)) :
    Pushes i s { s.cpu with pc := target } n s.cpu.pc := by
  refine storesTwo_of_exec (h.trans ?_)
  rw [State.call, State.setPc, push16_cpu, State.push16_eq]
  rfl

/-- Settles O43: `CALL` and `RST` are one call, `RET` one pop of `PC`, which `RETI`, `RETN` and its mirrors follow with one more
register write. -/
theorem callsAndReturns : Obligations.CallsAndReturns := by
  intro s nn cc t v back
  have ret := gives_of_exec_ite (i := .retCc cc) (s := s) (c := back) (d := s.cpu) .rfl rfl
  refine ⟨pushes_of_exec_call rfl, fun holds => pushes_of_exec_call (if_pos holds),
    fun fails => if_neg (ne_true_of_eq_false fails), ?rst, rfl, ret.1, fun fails => ret.2 (ne_true_of_eq_false fails),
    rfl, rfl, rfl⟩
  case rst =>
    rw [← restartTarget_eq_ofNat]
    exact pushes_of_exec_call rfl

end Sys2Proof.Proofs
end

section
/-! The inputs and outputs (R500 to R521): what a pool operation and a port event can change, the events of the default port table
(R505, R506), one byte read from or written to a port, and the obligations about them. -/

namespace Sys2Proof.Proofs

open Machine Claims

/-! ### What a pool operation can change (R640, R704) -/

/-- `t` is `s` but for the draw buffer, the pool, the buffers' storage and what REN was answered. -/
def PoolOnly (s t : State) : Prop :=
  ∃ draw pool pix chroma renView renBetween,
    t = { s with draw := draw, pool := pool, pix := pix, chroma := chroma, renView := renView, renBetween := renBetween }

theorem PoolOnly.intro {s t : State} {draw pool pix chroma renView renBetween}
    (h : t = { s with draw := draw, pool := pool, pix := pix, chroma := chroma, renView := renView, renBetween := renBetween }) :
    PoolOnly s t := ⟨_, _, _, _, _, _, h⟩

theorem PoolOnly.refl (s : State) : PoolOnly s s := .intro rfl

theorem PoolOnly.trans {s t u : State} (h : PoolOnly s t) (k : PoolOnly t u) : PoolOnly s u := by
  obtain ⟨_, _, _, _, _, _, rfl⟩ := h
  obtain ⟨_, _, _, _, _, _, rfl⟩ := k
  exact .intro rfl

theorem PoolOnly.ula {s t : State} (h : PoolOnly s t) : t.ula = s.ula := by
  obtain ⟨_, _, _, _, _, _, rfl⟩ := h
  rfl

/-- Whatever next state the outcome is, it differs from `s` as `PoolOnly` allows. -/
def PoolOut (s : State) (o : Out) : Prop := ∀ t, o = .next t → PoolOnly s t

theorem PoolOut.next {s t : State} (h : PoolOnly s t) : PoolOut s (.next t) := by
  rintro _ ⟨⟩
  exact h

theorem PoolOut.andThen {s : State} {o : Out} {f : State → Out} (h : PoolOut s o) (k : ∀ t, PoolOut t (f t)) :
    PoolOut s (andThen o f) := by
  intro u hu
  obtain ⟨t, ht, hf⟩ := andThen_eq_next hu
  exact (h t ht).trans (k t u hf)

theorem poolOut_locked {s : State} {who : LockState} {body : Pool → Except Fault (Pool × (State → State))}
    (h : ∀ p q after, body p = .ok (q, after) → ∀ t, PoolOnly t (after t)) : PoolOut s (s.locked who body) := by
  unfold State.locked
  split
  · split
    next q after ok => exact .next (PoolOnly.trans (.intro rfl) (h _ q after ok _))
    next => rintro _ ⟨⟩
  · rintro _ ⟨⟩

theorem poolOut_renOp (s : State) (op : RenOp) : PoolOut s (s.renOp op) := by
  unfold State.renOp
  cases op with
  | current =>
    refine poolOut_locked fun p q after ok t => ?_
    obtain ⟨⟩ := ok
    exact .intro rfl
  | advanceFrame =>
    refine poolOut_locked fun p q after ok t => ?_
    obtain ⟨⟩ := ok
    exact .refl t
  | setReady => exact .next (.intro rfl)

theorem poolOut_runRen (ops : List RenOp) (s : State) : PoolOut s (runRen ops s) := by
  induction ops generalizing s with
  | nil => exact .next (.refl s)
  | cons op ops ih => exact (poolOut_renOp s op).andThen ih

theorem poolOut_renTurn (s : State) : PoolOut s s.renTurn := by
  unfold State.renTurn
  split
  · exact .next (.refl s)
  next ops rest _ =>
    intro t ht
    exact PoolOnly.trans (.intro rfl) (poolOut_runRen ops { s with renBetween := rest } t ht)

theorem poolOut_acquireDraw (s : State) : PoolOut s s.acquireDraw := by
  refine (poolOut_renTurn s).andThen fun t => poolOut_locked fun p q after ok u => ?_
  split at ok
  · obtain ⟨⟩ := ok
    exact .intro rfl
  · nomatch ok

theorem poolOut_submitDraw (s : State) (k : Nat) : PoolOut s (s.submitDraw k) := by
  refine (poolOut_renTurn s).andThen fun t => poolOut_locked fun p q after ok u => ?_
  split at ok
  · obtain ⟨⟩ := ok
    exact .refl u
  · nomatch ok

theorem poolOnly_clearDraw (s : State) : PoolOnly s s.clearDraw := by
  unfold State.clearDraw
  split <;> exact .intro rfl

theorem poolOut_freshDraw (s : State) : PoolOut s s.freshDraw :=
  (poolOut_acquireDraw s).andThen fun t => .next (poolOnly_clearDraw t)

theorem poolOut_fieldHandOff (s : State) : PoolOut s s.fieldHandOff := by
  unfold State.fieldHandOff
  split
  · exact poolOut_freshDraw s
  next k _ => exact (poolOut_submitDraw s k).andThen poolOut_freshDraw

/-! ### What a port event can change (R503 to R506) -/

/-- `t` is `s` but for the raster and sync record, the answers `EV` and what a pool operation can change. -/
def EventOnly (s t : State) : Prop := ∃ ula ev, PoolOnly { s with ula := ula, ev := ev } t

theorem EventOnly.ofUla (s : State) (u : Ula) : EventOnly s (s.setUla u) := ⟨_, _, .refl _⟩

theorem EventOnly.refl (s : State) : EventOnly s s := .ofUla s s.ula

theorem EventOnly.trans {s t u : State} (h : EventOnly s t) (k : EventOnly t u) : EventOnly s u := by
  obtain ⟨_, _, _, _, _, _, _, _, rfl⟩ := h
  obtain ⟨_, _, _, _, _, _, _, _, rfl⟩ := k
  exact ⟨_, _, _, _, _, _, _, _, rfl⟩

theorem poolOnly_fillPulse (s : State) : PoolOnly s s.fillPulse := by
  unfold State.fillPulse State.floodFill
  split <;> exact .intro rfl

theorem vsyncClear_off {s : State} (off : s.ula.vsyncState = false) : s.vsyncClear = .next s := if_neg (ne_true_of_eq_false off)

/-- `VsyncClear()` ends the pulse and leaves the NMI generator as it was (R615). -/
theorem vsyncClear_eq_next {s t : State} (e : s.vsyncClear = .next t) :
    EventOnly s t ∧ t.ula.vsyncState = false ∧ t.ula.nmiGenOn = s.ula.nmiGenOn := by
  unfold State.vsyncClear at e
  split at e
  next =>
    have filled := poolOnly_fillPulse (s.setUla { s.ula with vsyncState := false })
    have event : EventOnly s _ := ⟨_, _, filled⟩
    have levels := And.intro (congrArg (·.vsyncState) filled.ula) (congrArg (·.nmiGenOn) filled.ula)
    split at e
    next =>
      have handed := poolOut_fieldHandOff _ t e
      rw [handed.ula]
      exact ⟨event.trans ⟨_, _, handed⟩, levels⟩
    next =>
      obtain ⟨⟩ := e
      exact ⟨event, levels⟩
  next off =>
    obtain ⟨⟩ := e
    exact ⟨.refl s, eq_false_of_ne_true off, rfl⟩

theorem eventOnly_vsyncSet (s : State) : EventOnly s s.vsyncSet := by
  unfold State.vsyncSet
  split
  · exact .refl s
  · exact .ofUla s _

theorem eventOnly_syncAct {s t : State} {act : SyncAct} (e : s.syncAct act = .next t) : EventOnly s t := by
  unfold State.syncAct at e
  split at e
  · obtain ⟨⟩ := e
    exact eventOnly_vsyncSet s
  · exact (vsyncClear_eq_next e).1
  all_goals
    obtain ⟨⟩ := e
    exact .ofUla _ _

theorem eventOnly_portEvents {access : PortAccess} {port : Word} {rules : List PortRule} {s t : State}
    (e : portEvents access port rules s = .next t) : EventOnly s t := by
  induction rules generalizing s with
  | nil =>
    obtain ⟨⟩ := e
    exact .refl _
  | cons r rs ih =>
    obtain ⟨u, first, rest⟩ := andThen_eq_next e
    refine EventOnly.trans ?_ (ih rest)
    split at first
    · exact eventOnly_syncAct first
    · obtain ⟨⟩ := first
      exact .refl _

/-! ### The events of the default table (R505, R506) -/

/-- The raster and sync record after the read events of the default table (R505). -/
def ulaAfterRead (s : State) (port : Word) : Ula :=
  if port.getLsbD 0 then s.ula
  else if s.cfg.machine = .ffVariant then { s.ula with l1 := true }
  else if s.ula.nmiGenOn || s.ula.vsyncState then s.ula
  else { s.ula with vsyncState := true, syncLen := 0, vsX := s.ula.rasterX, vsY := s.ula.rasterY }

theorem portReadEvents_eq_setUla {s : State} (table : s.cfg.portDecode = Config.defaultPorts) (port : Word) :
    s.portReadEvents port = .next (s.setUla (ulaAfterRead s port)) := by
  rw [Safety.portReadEvents_default port table, ulaAfterRead]
  cases port.getLsbD 0 with
  | true => rfl
  | false =>
    cases s.cfg.machine with
    | ffVariant => rfl
    | nmiVariant =>
      cases s.ula.nmiGenOn with
      | true => rfl
      | false => cases pulse : s.ula.vsyncState <;> simp [State.vsyncSet, State.setUla, pulse]

/-- The generator after the write events of the default table: bit 1 clear turns it off, then bit 0 clear turns it on (R506). -/
def genAfterWrite (s : State) (port : Word) : Bool := !port.getLsbD 0 || (port.getLsbD 1 && s.ula.nmiGenOn)

section WriteEvents

variable {s u : State} {port : Word} (inv : Safety.Inv s) (table : s.cfg.portDecode = Config.defaultPorts)
  (e : s.portWriteEvents port = .next u)

include inv table e

theorem portWriteEvents_ffVariant (machine : s.cfg.machine = .ffVariant) : u = s.setL1 false := by
  rw [Safety.portWriteEvents_default port inv table, machine] at e
  obtain ⟨⟩ := e
  rfl

/-- In variant A the pulse ends first, and the generator is set in the state this leads to. -/
theorem portWriteEvents_nmiVariant (machine : s.cfg.machine = .nmiVariant) :
    ∃ t, s.vsyncClear = .next t ∧ u = t.setNmiGen (genAfterWrite t port) := by
  rw [Safety.portWriteEvents_default port inv table, machine] at e
  obtain ⟨t, clear, gen⟩ := andThen_eq_next e
  obtain ⟨⟩ := gen
  refine ⟨t, clear, ?_⟩
  unfold genAfterWrite
  cases port.getLsbD 0 <;> cases port.getLsbD 1 <;> rfl

theorem portWriteEvents_nmiVariant_levels (machine : s.cfg.machine = .nmiVariant) :
    u.ula.vsyncState = false ∧ u.ula.nmiGenOn = genAfterWrite s port := by
  obtain ⟨t, clear, rfl⟩ := portWriteEvents_nmiVariant inv table e machine
  obtain ⟨-, pulse, gen⟩ := vsyncClear_eq_next clear
  exact ⟨pulse, by rw [genAfterWrite, genAfterWrite, gen]; rfl⟩

theorem portWriteEvents_nmiVariant_noPulse (machine : s.cfg.machine = .nmiVariant) (off : s.ula.vsyncState = false) :
    u = s.setNmiGen (genAfterWrite s port) := by
  obtain ⟨t, clear, rfl⟩ := portWriteEvents_nmiVariant inv table e machine
  rw [vsyncClear_off off] at clear
  obtain ⟨⟩ := clear
  rfl

theorem portWriteEvents_onlyUla (quiet : s.cfg.machine = .ffVariant ∨ s.ula.vsyncState = false) : u = s.setUla u.ula := by
  cases machine : s.cfg.machine with
  | ffVariant =>
    rw [portWriteEvents_ffVariant inv table e machine]
    rfl
  | nmiVariant =>
    have off : s.ula.vsyncState = false := quiet.resolve_left (by simp [machine])
    rw [portWriteEvents_nmiVariant_noPulse inv table e machine off]
    rfl

end WriteEvents

/-! ### The flags (R511, R512, R518) -/

theorem resultFlags_input (f v : Byte) : ResultFlags v false false (f.getLsbD 0) (flagsSZXYP v ||| (f &&& 0x01)) :=
  resultFlags_flagsSZXYP_or v (by simp [FlagsAre])

/-- A block input or output fixes `Z` and `N` only. -/
theorem flagsIoBlock_zero_negative (any b : Byte) :
    (flagsIoBlock any b).getLsbD 6 = (b == 0) ∧ (flagsIoBlock any b).getLsbD 1 = true := by
  simp [flagsIoBlock]

/-- The end of a block instruction, repeating or not, as one change of the state. -/
theorem finishBlock_eq (again : Bool) (s : State) :
    finishBlock again s = .next { s with
      cpu := { s.cpu with pc := if again then s.cpu.pc - 2 else s.cpu.pc }
      cycles := if again then 21 else 16 } := by
  cases again <;> rfl

/-! ### Inputs (R510 to R515, R559) -/

/-- The read events complete under the default table and in a well-formed state, and leave the CPU and its storage alone. -/
theorem exists_portReadEvents {s : State} (ok : s.cfg.portDecode = Config.defaultPorts ∨ Ready s) (port : Word) :
    ∃ t, s.portReadEvents port = .next t ∧ t.cpu = s.cpu ∧ t.phys = s.phys ∧ t.pt = s.pt ∧
      (s.cfg.portDecode = Config.defaultPorts → t = { s with ula := ulaAfterRead s port }) := by
  by_cases table : s.cfg.portDecode = Config.defaultPorts
  · exact ⟨_, portReadEvents_eq_setUla table port, rfl, rfl, rfl, fun _ => rfl⟩
  · obtain ⟨t, e, k⟩ := portEvents_eq_next (ok.resolve_left table) .read port s.cfg.portDecode
    exact ⟨t, e, k.cpu, k.phys, k.pt, fun h => absurd h table⟩

theorem wroteByte_memWrite {s t : State} (phys : t.phys = s.phys) (pt : t.pt = s.pt) (a : Word) (v : Byte) :
    WroteByte s (t.memWrite a v).phys a v := by
  intro p
  rw [State.phys_memWrite_read, physAddr_congr pt, State.entry, pt, phys]
  rfl

section Input

variable {s t : State} {port : Word} (e : s.portReadEvents port = .next t)

include e

theorem portRead_eq (use : Byte → State → State) :
    s.portRead port use = .next (use (Config.portIn t.freeCount port) t.drawn) := by
  rw [State.portRead, e]
  rfl

theorem input_eq (n : Nat) (use : Byte → State → State) :
    input n port use s = finish n (use (Config.portIn t.freeCount port) t.drawn) := by
  rw [input, portRead_eq e]
  rfl

end Input

/-- One byte of a block input: stored at `HL`, which steps, with `B` lowered and two values drawn (R512, R514). -/
theorem inBlock_eq {s t : State} (e : s.portReadEvents s.cpu.portC = .next t) (cpu : t.cpu = s.cpu) (step : Word) :
    s.inBlock step = .next { t with
      phys := (t.memWrite s.cpu.hl (Config.portIn t.freeCount s.cpu.portC)).phys
      cpu := { (s.cpu.setHl (s.cpu.hl + step)) with
        b := s.cpu.b - 1, f := flagsIoBlock (Config.freeByte (t.freeCount + 1)) (s.cpu.b - 1) }
      freeCount := t.freeCount + 2 } := by
  rw [State.inBlock, portRead_eq e, ← cpu, State.storeInput, State.memWrite_eq, State.memWrite_eq]
  rfl

/-- Settles O44: every form reads one port, whose events come first; a block form then stores the byte and ends like the other block
instructions. -/
theorem inputInstructions : Obligations.InputInstructions := by
  intro s n r ok after events an bc reads
  have found (port : Word) : ∃ t, events port t := exists_portReadEvents ok port
  obtain ⟨t, ev⟩ := found bc
  have ⟨e, cpu, phys, pt, _⟩ := ev
  have block (i : Instr) (step : Word) (repeats : Bool)
      (h : exec i s = andThen (s.inBlock step) fun u => finishBlock (repeats && u.cpu.b != 0) u) : reads i step repeats := by
    refine ⟨t, flagsIoBlock (Config.freeByte (t.freeCount + 1)) (s.cpu.b - 1), _, ev, ?_, wroteByte_memWrite phys pt _ _,
      flagsIoBlock_zero_negative ..⟩
    rw [h, inBlock_eq e cpu, andThen_next, finishBlock_eq]
    rfl
  refine ⟨?inAN, ⟨t, _, ev, ?inRC, resultFlags_input ..⟩, ⟨t, _, ev, ?inFC, resultFlags_input ..⟩,
    block .ini 1 false rfl, block .ind (-1) false rfl, block .inir 1 true rfl, block .indr (-1) true rfl⟩
  case inAN =>
    obtain ⟨u, ev⟩ := found an
    have ⟨e, cpu, _⟩ := ev
    refine ⟨u, ev, (input_eq e 11 _).trans ?_⟩
    rw [← cpu]
    rfl
  case inRC =>
    refine (input_eq e 12 _).trans ?_
    rw [State.inputFlags, State.setReg_cpu, setReg_f, ← cpu]
    rfl
  case inFC =>
    refine (input_eq e 12 _).trans ?_
    rw [← cpu]
    rfl

/-! ### Outputs (R516 to R521, R560) -/

theorem soundHook_eq (s : State) (port : Word) (v : Byte) :
    s.soundHook port v = { s with
      soundLog := if soundRelevant s.cfg port then s.soundLog ++ [⟨port, v, s.frames, s.ts⟩] else s.soundLog } := by
  unfold State.soundHook
  split <;> rfl

section Output

variable {s u : State} {port : Word} (e : s.portWriteEvents port = .next u)

include e

theorem portWrite_eq (v : Byte) : s.portWrite port v = .next (u.soundHook port v) := by
  rw [State.portWrite, e]
  rfl

theorem output_eq (n : Nat) (v : Byte) : output n port v s = finish n (u.soundHook port v) := by
  rw [output, portWrite_eq e]
  rfl

end Output

/-- One byte of a block output: `B` is lowered before the write, then `HL` steps and a value is drawn (R518, R520). -/
theorem outBlock_eq {s u : State} (step : Word)
    (e : (s.setReg .b (s.cpu.b - 1)).portWriteEvents (s.cpu.setReg .b (s.cpu.b - 1)).portC = .next u)
    (cpu : u.cpu = s.cpu.setReg .b (s.cpu.b - 1)) :
    s.outBlock step = .next { u.soundHook (s.cpu.setReg .b (s.cpu.b - 1)).portC (s.memRead s.cpu.hl) with
      cpu := { (s.cpu.setHl (s.cpu.hl + step)) with
        b := s.cpu.b - 1, f := flagsIoBlock (Config.freeByte u.freeCount) (s.cpu.b - 1) }
      freeCount := u.freeCount + 1 } := by
  rw [State.outBlock]
  dsimp only
  rw [State.setReg_cpu, portWrite_eq e, andThen_next, State.ioBlockFlags, soundHook_eq]
  simp only [State.setHl, State.setCpu, State.setF, cpu]
  rfl

/-- Settles O45: every form writes one port, whose events come first; a block form lowers `B` before and ends like the other block
instructions. -/
theorem outputInstructions : Obligations.OutputInstructions := by
  intro s n r inv cap writes blocks
  have write {i : Instr} {port : Word} {v : Byte} {before after : Cpu} {cycles drawn : Nat}
      (h : ∀ u, (s.setCpu before).portWriteEvents port = .next u → u.cpu = before → u.freeCount = s.freeCount →
        exec i s = .next { u.soundHook port v with cpu := after, cycles := cycles, freeCount := u.freeCount + drawn }) :
      writes i port v before after cycles drawn := by
    have ready : Ready (s.setCpu before) := Ready.sameBlock ⟨inv, cap⟩ ((SameBlock.refl s).setCpu before)
    obtain ⟨u, e, k⟩ := portEvents_eq_next ready .write port s.cfg.portDecode
    have run := h u e k.cpu
    obtain ⟨_, _, _, _, _, _, _, _, rfl⟩ := eventOnly_portEvents e
    refine ⟨_, _, e, run rfl, by rw [soundHook_eq]; rfl, fun table => ?_⟩
    refine ⟨fun machine => ?_, fun machine => ?_, fun machine off => ?_, fun quiet => ?_⟩
    · exact congrArg (·.ula) (portWriteEvents_ffVariant ready.1 table e machine)
    · exact portWriteEvents_nmiVariant_levels (s := s.setCpu before) ready.1 table e machine
    · exact congrArg (·.ula) (portWriteEvents_nmiVariant_noPulse ready.1 table e machine off)
    · exact portWriteEvents_onlyUla ready.1 table e quiet
  have single {i : Instr} {port : Word} {v : Byte} {n : Nat} (h : exec i s = output n port v s) :
      writes i port v s.cpu s.cpu n 0 :=
    write fun u e cpu _ => by
      rw [h, output_eq (s := s) e, soundHook_eq, ← cpu]
      rfl
  have block (i : Instr) (step : Word) (repeats : Bool)
      (h : exec i s = andThen (s.outBlock step) fun u => finishBlock (repeats && u.cpu.b != 0) u) : blocks i step repeats := by
    refine ⟨flagsIoBlock (Config.freeByte s.freeCount) (s.cpu.b - 1), write fun u e cpu free => ?_,
      flagsIoBlock_zero_negative ..⟩
    rw [h, outBlock_eq step e cpu, andThen_next, finishBlock_eq, free]
    rfl
  exact ⟨single rfl, single rfl, single rfl,
    block .outi 1 false rfl, block .outd (-1) false rfl, block .otir 1 true rfl, block .otdr (-1) true rfl⟩

end Sys2Proof.Proofs
end

section
/-! The loads with an index half (R551, R552): the register names of R551 away from `H` and `L`, and the obligation about the loads. -/

namespace Sys2Proof.Proofs

open Machine Claims

theorem yReg_eq_reg (c : Cpu) (x : Idx) {r : Reg8} (notH : r ≠ .h) (notL : r ≠ .l) : c.yReg x r = c.reg r := by
  cases r with
  | h => exact absurd rfl notH
  | l => exact absurd rfl notL
  | b | c | d | e | a => rfl

theorem setYReg_eq_setReg (c : Cpu) (x : Idx) {r : Reg8} (v : Byte) (notH : r ≠ .h) (notL : r ≠ .l) :
    c.setYReg x r v = c.setReg r v := by
  cases r with
  | h => exact absurd rfl notH
  | l => exact absurd rfl notL
  | b | c | d | e | a => rfl

theorem half_setHalf_ne (c : Cpu) (x : Idx) {hf g : Half} (v : Byte) (ne : g ≠ hf) :
    (c.setHalf x hf v).half x g = c.half x g := by
  cases hf <;> cases g
  case high.high | low.low => exact absurd rfl ne
  case high.low | low.high => simp [Cpu.setHalf, Cpu.half]

/-- Settles O41: each form is one write of a half or of a register; what R551 calls `r` is the plain register unless it is `H` or
`L`, which name a half. -/
theorem indexHalfLoads : Obligations.IndexHalfLoads := by
  intro s x hf g r n
  refine ⟨rfl, fun notH notL => ?toReg, fun notH notL => ?fromReg, rfl, rfl, rfl, rfl, ?halves⟩
  case toReg => rw [← setYReg_eq_setReg s.cpu x _ notH notL]; rfl
  case fromReg => rw [← yReg_eq_reg s.cpu x notH notL]; rfl
  case halves =>
    split
    case isTrue same => rw [same, Cpu.half_setHalf]
    case isFalse ne => exact half_setHalf_ne s.cpu x n ne

end Sys2Proof.Proofs
end

section
/-! The draw buffer between two fields (R640, R641, R645): the flood fill pixel by pixel, EMU's pool operations where REN takes no
turn, the start of EMU, and the obligations about them. -/

namespace Sys2Proof.Proofs

open Machine Claims

/-! ### The flood fill (R645) -/

/-- The pixel at `x`, `y` is the one that `a` counts to, row by row. -/
theorem eq_mod_div_iff {w x : Nat} (hx : x < w) (y a : Nat) : (x = a % w ∧ y = a / w) ↔ y * w + x = a := by
  constructor
  · rintro ⟨rfl, rfl⟩
    exact Nat.div_add_mod' a w
  · rintro rfl
    rw [Nat.mul_add_mod_self_right, Nat.mod_eq_of_lt hx, Nat.mul_comm,
      Nat.mul_add_div (Nat.zero_lt_of_lt hx), Nat.div_eq_of_lt hx]
    exact ⟨rfl, rfl⟩

section Fill

variable {c : Config} (fit : c.bufW ≤ 8 * c.stride) (m : Memory) {x y : Nat} (hx : x < c.bufW)

include fit hx

theorem pixel_fillRun (n a : Nat) :
    (fillRun c m n a).pixel c.stride x y =
      (decide (a ≤ y * c.bufW + x ∧ y * c.bufW + x < a + n) || m.pixel c.stride x y) := by
  induction n generalizing m a with
  | zero =>
    have none : ¬(a ≤ y * c.bufW + x ∧ y * c.bufW + x < a + 0) := by omega
    rw [decide_eq_false none]
    rfl
  | succ n ih =>
    have column : a % c.bufW < c.bufW := Nat.mod_lt _ (Nat.zero_lt_of_lt hx)
    rw [fillRun, ih, pixel_setPixel _ _ (by omega) (by omega), if_congr (eq_mod_div_iff hx y a) rfl rfl]
    by_cases first : y * c.bufW + x = a
    · simp [first, Config.syncFill]
    · rw [if_neg first]
      congr 2
      simp only [eq_iff_iff]
      omega

theorem pixel_fillRange (a b : Nat) :
    (fillRange c m a b).pixel c.stride x y =
      (decide (a ≤ y * c.bufW + x ∧ y * c.bufW + x < b) || m.pixel c.stride x y) := by
  rw [fillRange, pixel_fillRun fit m hx]
  congr 2
  simp only [eq_iff_iff]
  omega

/-- A region whose end comes first is its two runs, the second from the top of the buffer. -/
theorem pixel_fillRegion (hy : y < c.bufH) (a b : Nat) :
    (fillRegion c m a b).pixel c.stride x y =
      (decide (if a ≤ b then a ≤ y * c.bufW + x ∧ y * c.bufW + x < b else a ≤ y * c.bufW + x ∨ y * c.bufW + x < b) ||
        m.pixel c.stride x y) := by
  unfold fillRegion
  split_ifs with order
  · exact pixel_fillRange fit m hx a b
  · have inside : y * c.bufW + x < c.bufW * c.bufH := by nlinarith
    rw [pixel_fillRange fit _ hx, pixel_fillRange fit _ hx, ← Bool.or_assoc, ← Bool.decide_or]
    congr 2
    simp only [eq_iff_iff]
    omega

end Fill

/-- `Lin` as an integer. -/
theorem natCast_linearIndex (c : Config) (bx by0 : Int) :
    (linearIndex c bx by0 : Int) =
      if by0 < 0 then 0 else if (c.bufH : Int) ≤ by0 then (c.bufW : Int) * c.bufH
      else by0 * c.bufW + min (max bx 0) c.bufW := by
  unfold linearIndex
  split_ifs
  · rfl
  · exact Nat.cast_mul ..
  · rw [Nat.cast_add, Nat.cast_mul, Int.toNat_of_nonneg (by omega), Int.toNat_of_nonneg (by omega)]

/-- A change of one buffer leaves the others. -/
theorem getD_modify_ne (l : List Memory) (f : Memory → Memory) {k n : Nat} (ne : n ≠ k) :
    (l.modify k f).getD n [] = l.getD n [] := by
  simp [ne.symm]

/-- Settles O53: the fill changes the draw buffer only, and there the pixels of its one or two runs. -/
theorem floodFillRegion : Obligations.FloodFillRegion := by
  refine ⟨fun s x0 y0 x1 y1 draw => ?none, fun s x0 y0 x1 y1 h inv draw => ?some⟩
  case none => rw [State.floodFill, draw]
  case some =>
    intro w lin first last t
    let start := linearIndex s.cfg (x0 + s.cfg.pixOffsetX - s.cfg.winX0) (y0 - s.cfg.winY0)
    let stop := linearIndex s.cfg (x1 + s.cfg.pixOffsetX - s.cfg.winX0) (y1 - s.cfg.winY0)
    have first_eq : first = start := (natCast_linearIndex ..).symm
    have last_eq : last = stop := (natCast_linearIndex ..).symm
    have filled : t = { s with pix := s.pix.modify h fun m => fillRegion s.cfg m start stop } := by
      simp only [t, State.floodFill, draw]; rfl
    have buffer : t.pix.getD h [] = fillRegion s.cfg (s.pix.getD h []) start stop := by
      simp [filled, draw_lt_pix_length inv draw]
    clear_value t
    refine ⟨?_, ?_, fun k ne => ?_, fun x y hx hy => ?_⟩
    · rw [filled]
    · rw [filled]
      exact List.length_modify ..
    · rw [filled]
      exact getD_modify_ne _ _ ne
    · intro p inside
      have region : inside ↔ if start ≤ stop then start ≤ y * s.cfg.bufW + x ∧ y * s.cfg.bufW + x < stop
          else start ≤ y * s.cfg.bufW + x ∨ y * s.cfg.bufW + x < stop := by
        simp only [inside, first_eq, last_eq, p, w]
        norm_cast
      rw [buffer, pixel_fillRegion (bufW_le_stride inv) _ hx hy]
      refine ⟨fun yes => ?_, fun no => ?_⟩
      · rw [decide_eq_true (region.1 yes), Bool.true_or]
      · rw [decide_eq_false (mt region.2 no), Bool.false_or]

/-! ### EMU's pool operations where REN takes no turn (R640, R704, R712) -/

theorem renTurn_quiet {s : State} (quiet : s.renBetween = []) : s.renTurn = .next s := by rw [State.renTurn, quiet]

theorem unlock_free {p : Pool} (free : p.lock = .free) : { p with lock := .free } = p := by rw [← free]

/-- `submit` under the lock, by EMU. -/
theorem submitDraw_quiet {s : State} {h : Nat} {p : Pool} (quiet : s.renBetween = [])
    (pool : Safety.PoolOk s.cfg.poolCap s.pool)
    (e : s.pool.submit s.cfg.colour h (s.cfg.frameSync != .off) true s.cfg.colour = some p) :
    s.submitDraw h = .next { s with pool := p } := by
  simp only [State.submitDraw, renTurn_quiet quiet, andThen_next, Safety.locked_ok _ _ _ pool.lockFree, Safety.submit_lock, e,
    Option.map_some, unlock_free (pool.submit e).1.lockFree, id]

/-- `acquire_free` under the lock, by EMU. -/
theorem acquireDraw_quiet {s : State} {k : Nat} {q : Pool} (quiet : s.renBetween = [])
    (pool : Safety.PoolOk s.cfg.poolCap s.pool) (e : s.pool.acquireFree = some (k, q)) :
    s.acquireDraw = .next { s with pool := q, draw := some k } := by
  simp only [State.acquireDraw, renTurn_quiet quiet, andThen_next, Safety.locked_ok _ _ _ pool.lockFree, Safety.acquireFree_lock,
    e, Option.map_some, unlock_free (pool.acquireFree e).1.lockFree]

/-- `t` is `s` but for the pixel storage, where buffer `k` is all zero, and its chroma storage too in colour. -/
def Cleared (k : Nat) (s t : State) : Prop :=
  t = { s with pix := t.pix, chroma := t.chroma } ∧
    (∀ j, (t.pix.getD k []).read j = 0) ∧ (s.cfg.colour = true → ∀ j, (t.chroma.getD k []).read j = 0) ∧
    (s.cfg.colour = false → t.chroma = s.chroma) ∧
    ∀ n, n ≠ k → t.pix.getD n [] = s.pix.getD n [] ∧ t.chroma.getD n [] = s.chroma.getD n []

theorem read_modify_nil (l : List Memory) (k j : Nat) : ((l.modify k fun _ => []).getD k []).read j = 0 := by
  have empty : (l.modify k fun _ => []).getD k [] = [] := by
    rw [List.getD_eq_getElem?_getD, List.getElem?_modify_eq]
    cases l[k]? <;> rfl
  rw [empty]
  rfl

theorem clearDraw_eq {s : State} {k : Nat} (draw : s.draw = some k) :
    s.clearDraw =
      { s with
        pix := s.pix.modify k fun _ => []
        chroma := if s.cfg.colour then s.chroma.modify k fun _ => [] else s.chroma } := by
  simp [State.clearDraw, draw]

theorem cleared_clearDraw {s : State} {k : Nat} (draw : s.draw = some k) : Cleared k s s.clearDraw := by
  rw [clearDraw_eq draw]
  refine ⟨rfl, read_modify_nil s.pix k, fun on j => ?_, fun off => if_neg (ne_true_of_eq_false off),
    fun n ne => ⟨getD_modify_ne _ _ ne, ?_⟩⟩
  · simp only [if_pos on]
    exact read_modify_nil s.chroma k j
  · dsimp only
    split
    · exact getD_modify_ne _ _ ne
    · rfl

/-- EMU's acquisition with no handle outstanding and a capacity of three or more (R712). -/
theorem freshDraw_quiet {s : State} (quiet : s.renBetween = []) (out : Safety.InvOut [] s) (cap : 3 ≤ s.cfg.poolCap) :
    ∃ k q t, s.pool.acquireFree = some (k, q) ∧ s.freshDraw = .next t ∧ Cleared k { s with pool := q, draw := some k } t := by
  obtain ⟨k, q, e⟩ := out.pool.acquireFree_some (by rw [out.out]; simpa using cap)
  exact ⟨k, q, _, e, by rw [State.freshDraw, acquireDraw_quiet quiet out.pool e, andThen_next], cleared_clearDraw rfl⟩

/-! ### The hand-off (R640, R712) -/

theorem fieldHandOff_draw {s : State} {h : Nat} (draw : s.draw = some h) :
    s.fieldHandOff = andThen (s.submitDraw h) State.freshDraw := by
  rw [State.fieldHandOff, draw]

theorem fieldHandOff_completes {s : State} (h : Ready s) : ∃ t, s.fieldHandOff = .next t ∧ t.draw.isSome := by
  obtain ⟨inv, cap⟩ := h
  have ok := Safety.fieldHandOff_ok inv
  obtain ⟨t, e⟩ := ok.total cap
  refine ⟨t, e, ?_⟩
  cases draw : s.draw with
  | none =>
    have out := inv.toOut
    rw [draw] at out
    rw [State.fieldHandOff, draw] at e
    exact (Safety.freshDraw_ok out).2 t e
  | some h => exact (ok.step t e).draw (Option.isSome_of_eq_some draw)

/-- The draw buffer is outstanding, so its `submit` is accepted (R715). -/
theorem exists_submit {s : State} {h : Nat} (inv : Safety.Inv s) (draw : s.draw = some h)
    (colour deferred release coloured : Bool) : ∃ p, s.pool.submit colour h deferred release coloured = some p := by
  rw [Safety.submit_eq, inv.draw, draw]
  simp

/-- Settles O54: after the one `submit` nothing is outstanding, and `acquire_free` has a buffer to give. -/
theorem fieldHandOffGivesClearBuffer : Obligations.FieldHandOffGivesClearBuffer := by
  refine ⟨fun s inv cap => fieldHandOff_completes ⟨inv, cap⟩, fun s h inv cap draw quiet => ?_⟩
  obtain ⟨p, submitted⟩ := exists_submit inv draw s.cfg.colour (s.cfg.frameSync != .off) true s.cfg.colour
  have out : Safety.InvOut [] { s with pool := p } := by
    obtain ⟨ok, left, -⟩ := inv.pool.submit submitted
    refine inv.toOut.withPool ok ?_
    rw [left, inv.draw, draw]
    simp
  obtain ⟨k, q, t, acquired, e, cleared⟩ := freshDraw_quiet (s := { s with pool := p }) quiet out cap
  obtain ⟨rest, zero⟩ := cleared
  refine ⟨p, q, k, t, ?_, acquired, ?_, rest, zero⟩
  · rw [← submitted]
    congr 1
    exact (decide_not ..)
  · rw [fieldHandOff_draw draw, submitDraw_quiet quiet inv.pool submitted, andThen_next, e]

/-! ### The start of EMU (R641, R745) -/

theorem step_eq_startUp {s : State} (agenda : s.agenda = []) (draw : s.draw = none) : step s = s.startUp := by
  rw [step, agenda, draw]

theorem acquireFree_renderReady {p q : Pool} {k : Nat} (e : p.acquireFree = some (k, q)) : q.renderReady = p.renderReady := by
  unfold Pool.acquireFree at e
  split at e
  next => obtain ⟨⟩ := e; rfl
  next => obtain ⟨⟩ := e; rfl
  next => split at e <;> (obtain ⟨⟩ := e; rfl)
  next => nomatch e

/-- Settles O60: `startUp` is the signal of REN, then EMU's acquisition. -/
theorem emuStartsAfterRenderReady : Obligations.EmuStartsAfterRenderReady := by
  refine ⟨fun s agenda draw notReady => ?signal, fun s inv cap agenda draw ready quiet => ?acquire⟩
  case signal => rw [step_eq_startUp agenda draw, State.startUp, if_neg (ne_true_of_eq_false notReady), State.renOp]
  case acquire =>
    have out := inv.toOut
    rw [draw] at out
    obtain ⟨k, q, t, acquired, e, rest, zero, -⟩ := freshDraw_quiet quiet out cap
    refine ⟨k, q, t, acquired, ?_, ?_, rest, zero⟩
    · rw [step_eq_startUp agenda draw, State.startUp, if_pos ready, e]
    · rw [rest]
      exact (acquireFree_renderReady acquired).trans ready

end Sys2Proof.Proofs
end

section
/-! The T-states of both variants and the vertical sync pulse of variant A (R610 to R625): what a tick makes of the raster and
sync record, the classification of a pulse of variant B, and the obligations about them. -/

namespace Sys2Proof.Proofs

open Machine Claims

/-! ### The horizontal edge (R604, R605) -/

theorem row_succ (row : BitVec 3) : row + 1 = BitVec.ofNat 3 ((row.toNat + 1) % 8) := by bv_omega

theorem hsyncEdge_eq (s : State) (held : Bool) :
    s.hsyncEdge held =
      { s with
        ula := { s.ula with
          rasterX := 0
          rasterY := s.ula.rasterY + 1
          row := if held then 0 else BitVec.ofNat 3 ((s.ula.row.toNat + 1) % 8) }
        ev := { s.ev with lineBoundary := true, rowStale := true } } := by
  rw [State.hsyncEdge, row_succ]

/-! ### A T-state of variant A (R610 to R616) -/

/-- Settles O48: an edge or none, with or without a request of the generator, during the vertical sync or not. -/
theorem tickOfVariantA : Obligations.TickOfVariantA := by
  intro s n edge
  unfold State.tickA
  by_cases h : (s.ula.hsCounter + 1) % s.cfg.lineTs = s.cfg.hsOffset
  · cases vsync : s.ula.vsyncState <;> cases gen : s.ula.nmiGenOn <;>
      simp [n, edge, h, vsync, gen, Ula.countA, State.setUla, hsyncEdge_eq, hsyncLevel, Safety.saturatingSucc_eq]
  · cases vsync : s.ula.vsyncState <;>
      simp [n, edge, h, vsync, Ula.countA, State.setUla, hsyncLevel, Safety.saturatingSucc_eq]

/-! ### A field boundary (R608, R615, R620) -/

theorem PoolOnly.ev {s t : State} (h : PoolOnly s t) : t.ev = s.ev := by
  obtain ⟨_, _, _, _, _, _, rfl⟩ := h
  rfl

theorem Ready.ulaStep {s t : State} (h : Ready s) (k : Safety.UlaStep s t) : Ready t := ⟨k.inv, k.cfg ▸ h.2⟩

theorem Ready.withUla {s : State} (h : Ready s) (u : Ula) (ev : SyncEvent) : Ready { s with ula := u, ev := ev } :=
  h.ulaStep (.ula h.1 u ev)

/-- A flood fill changes the pixel storage only. -/
theorem floodFill_eq (s : State) (x0 y0 x1 y1 : Int) :
    s.floodFill x0 y0 x1 y1 = { s with pix := (s.floodFill x0 y0 x1 y1).pix } :=
  Safety.floodFill_congr rfl rfl rfl x0 y0 x1 y1

theorem Ready.floodFill {s : State} (h : Ready s) (x0 y0 x1 y1 : Int) :
    Ready { s with pix := (s.floodFill x0 y0 x1 y1).pix } :=
  floodFill_eq s x0 y0 x1 y1 ▸ h.ulaStep (Safety.floodFill_step h.1 x0 y0 x1 y1)

/-- The fill of a pulse, in a state that has another raster and sync record than `s`. -/
theorem fillPulse_setUla (s : State) (u : Ula) :
    (s.setUla u).fillPulse =
      { s with ula := u, pix := (s.floodFill u.vsX.toInt u.vsY.toInt u.rasterX.toInt u.rasterY.toInt).pix } :=
  Safety.floodFill_congr (s := s) (t := s.setUla u) rfl rfl rfl ..

/-! ### The vertical sync pulse of variant A (R614, R615) -/

/-- Settles O50: the end of a pulse is the fill and, when the pulse was long enough, the hand-off of the state this leaves. -/
theorem verticalSyncPulseOfVariantA : Obligations.VerticalSyncPulseOfVariantA := by
  intro s
  refine ⟨fun on => if_pos on, fun off => if_neg (ne_true_of_eq_false off), vsyncClear_off, fun inv cap on => ?ends⟩
  intro filled
  have ends : s.vsyncClear =
      if s.cfg.vsyncThreshold ≤ s.ula.syncLen.toNat then filled.fieldBoundary else .next filled := by
    rw [State.vsyncClear, if_pos on, fillPulse_setUla]
  refine ⟨fun short => ?short, fun long => ?long⟩
  case short => rw [ends, if_neg (Nat.not_le.2 short)]
  case long =>
    have ready : Ready filled.newField := ((Ready.floodFill ⟨inv, cap⟩ ..).withUla _ s.ev).withUla _ _
    obtain ⟨t, e, draw⟩ := fieldHandOff_completes ready
    have only := poolOut_fieldHandOff _ t e
    exact ⟨t, by rw [ends, if_pos long, State.fieldBoundary, e], e, only.ula, only.ev, draw⟩

/-! ### A T-state of variant B (R620 to R625) -/

theorem latchStep_eq (c : Config) (v : Latches) :
    latchStep c v = if c.latch = .standard then standardLatches c v else Config.latchFn v := by
  unfold latchStep
  split
  next h => rw [if_pos h]
  next h => rw [if_neg (by simp [h])]

/-- The default latches with the saturating count as a number (R620). -/
theorem standardLatches_eq (c : Config) (v : Latches) :
    standardLatches c v =
      let len := if v.l2 then v.l2Len + 1 else v.l2Len
      let l2 := v.l2 && decide (len.toNat < c.hsWidthB)
      let comp := v.l1 || l2
      let from0 := if comp && !v.l3 then 0 else v.syncLen
      ⟨⟨v.l1, l2, comp, len, if comp then BitVec.ofNat 32 (min (from0.toNat + 1) (2 ^ 32 - 1)) else from0⟩, comp && !v.l3,
        !comp && v.l3⟩ := by
  simp only [standardLatches, Safety.saturatingSucc_eq]

/-- The raster and sync record that a step of the latches leaves, before the classification (R620). -/
def countedB (u : Ula) (x : BitVec 32) (o : LatchStep) : Ula :=
  { u with
    rasterX := x, l1 := o.latches.l1, l2 := o.latches.l2, l3 := o.latches.l3, l2Len := o.latches.l2Len
    syncLen := o.latches.syncLen
    vsX := if o.rises then x else u.vsX
    vsY := if o.rises then u.rasterY else u.vsY }

theorem countB_eq (u : Ula) (c : Config) :
    u.countB c = countedB u (u.rasterX + BitVec.ofNat 32 c.xPerT) (latchStep c u.latches) := by
  unfold Ula.countB countedB
  obtain ⟨v, rises, falls⟩ := latchStep c u.latches
  cases rises <;> rfl

/-- The count comes first, and a falling edge of the composite sync is classified in the state it leaves (R620). -/
theorem tickB_eq (s : State) :
    s.tickB =
      if (latchStep s.cfg s.ula.latches).falls then (s.setUla (s.ula.countB s.cfg)).classifyB
      else .next (s.setUla (s.ula.countB s.cfg)) := rfl

/-- A pulse too short for a vertical one is horizontal (R625). -/
theorem classifyB_short {s : State} (short : ¬s.cfg.vsyncThreshold ≤ s.ula.syncLen.toNat) :
    s.classifyB =
      .next { s with
        ula := { s.ula with
          rasterX := 0
          rasterY := s.ula.rasterY + 1
          row := if s.ula.rowHold then 0 else BitVec.ofNat 3 ((s.ula.row.toNat + 1) % 8)
          rowHold := false }
        ev := { s.ev with lineBoundary := true, rowStale := true } } := by
  rw [State.classifyB, if_neg short, hsyncEdge_eq]
  rfl

/-- A vertical pulse ends the field: its region is filled and the draw buffer handed over (R608, R625). -/
theorem classifyB_long {s : State} {u : Ula} (long : s.cfg.vsyncThreshold ≤ u.syncLen.toNat) :
    (s.setUla u).classifyB =
      ({ s with
        ula := { u with rasterY := 0, rowHold := true }
        ev := { s.ev with fieldBoundary := true }
        pix := (s.floodFill u.vsX.toInt u.vsY.toInt u.rasterX.toInt u.rasterY.toInt).pix } : State).fieldHandOff := by
  refine (if_pos long).trans ?_
  rw [fillPulse_setUla]
  rfl

/-- Settles O49: the latches step as `LATCH_FN` says; then the tick ends, or the pulse is classified by its length. -/
theorem tickOfVariantB : Obligations.TickOfVariantB := by
  intro s inv cap u len l2 comp from0 counted o x base vertical
  have latched : latchStep s.cfg u.latches = o := by
    rw [latchStep_eq, standardLatches_eq]
    rfl
  have counting : u.countB s.cfg = base := by
    rw [countB_eq, latched]
    rfl
  have ticks : s.tickB = if o.falls then (s.setUla base).classifyB else .next (s.setUla base) := by
    rw [tickB_eq, latched, counting]
  have ready : Ready s := ⟨inv, cap⟩
  clear_value o
  cases falls : o.falls with
  | false => exact ⟨s.setUla base, by rw [ticks, falls]; rfl, fun _ => rfl, nofun, nofun⟩
  | true =>
    rw [falls, if_pos rfl] at ticks
    by_cases long : vertical
    · have filled := (ready.floodFill base.vsX.toInt base.vsY.toInt x.toInt u.rasterY.toInt).withUla
        { base with rasterY := 0, rowHold := true } { s.ev with fieldBoundary := true }
      obtain ⟨t, handed, draw⟩ := fieldHandOff_completes filled
      have only := poolOut_fieldHandOff _ t handed
      have e : s.tickB = .next t := ticks.trans ((classifyB_long long).trans handed)
      refine ⟨t, e, nofun, fun _ short => absurd long short, fun _ _ => ⟨handed, only.ula, only.ev, draw, ?_⟩⟩
      obtain ⟨_, _, _, _, _, _, rfl⟩ := only
      exact ⟨rfl, rfl, rfl, rfl⟩
    · exact ⟨_, by rw [ticks, classifyB_short long]; rfl, nofun, fun _ _ => rfl, fun _ h => absurd h long⟩

end Sys2Proof.Proofs
end

section
/-! The clamps and the sync loss (R606, R607), the bounds of the raster position (R655) and the row counter (R605): what each part
of an `EmuCycle` does to them, and the obligation about them. -/

namespace Sys2Proof.Proofs

open Machine Claims

/-! ### The sync loss (R607) -/

theorem renOnly_eq {s t : State} (h : Safety.RenOnly s t) :
    t = { s with pool := t.pool, renBetween := t.renBetween, renView := t.renView } := by
  rw [← h.cfg, ← h.cpu, ← h.pt, ← h.phys, ← h.ts, ← h.frames, ← h.ula, ← h.draw, ← h.pix, ← h.chroma, ← h.cycles, ← h.ev,
    ← h.soundLog, ← h.soundFlushed, ← h.hostResult, ← h.agenda, ← h.freeCount]

/-- `blank` by EMU: REN's turn, then the pool blanked. -/
theorem blankDisplay_eq_next {s : State} (inv : Safety.Inv s) (toBlack : Bool) :
    ∃ u, s.renTurn = .next u ∧ Safety.RenOnly s u ∧ s.blankDisplay toBlack = .next { u with pool := u.pool.blank toBlack } := by
  obtain ⟨u, turn, out, only⟩ := Safety.renTurn_ok inv.toOut
  refine ⟨u, turn, only, ?_⟩
  have free := (out.pool.blank toBlack).lockFree
  rw [State.blankDisplay, turn, andThen_next, Safety.locked_ok _ _ _ out.pool.lockFree, ← unlock_free free]
  rfl

theorem syncLoss_spec {s : State} (inv : Safety.Inv s) :
    ∃ t, s.syncLoss = .next t ∧ t.pool.blanked = true ∧
      t.pool.blankColour = (if s.cfg.syncLossBlack then .black else .white) ∧
      t = { s with
        pool := t.pool, ula := { s.ula with rasterY := 0 }, ev := { s.ev with fieldBoundary := true }
        renBetween := t.renBetween, renView := t.renView } ∧
      (s.renBetween = [] → t.pool = s.pool.blank s.cfg.syncLossBlack) := by
  obtain ⟨u, turn, only, blanked⟩ := blankDisplay_eq_next inv s.cfg.syncLossBlack
  refine ⟨_, by rw [State.syncLoss, blanked, andThen_next], rfl, rfl, ?_, fun quiet => ?_⟩
  · rw [renOnly_eq only]
    rfl
  · obtain ⟨⟩ := (renTurn_quiet quiet).symm.trans turn
    rfl

/-! ### The clamps (R606, R607) -/

theorem clampLine_eq (s : State) :
    s.clampLine =
      { s with
        ula := { s.ula with
          rasterX := if (s.cfg.lineMax : Int) ≤ s.ula.rasterX.toInt then 0 else s.ula.rasterX
          rasterY := if (s.cfg.lineMax : Int) ≤ s.ula.rasterX.toInt then s.ula.rasterY + 1 else s.ula.rasterY }
        ev := { s.ev with lineBoundary := s.ev.lineBoundary || decide ((s.cfg.lineMax : Int) ≤ s.ula.rasterX.toInt) } } := by
  unfold State.clampLine
  split
  next late => simp [late]
  next early => simp [early]

/-! ### The row counter over an advance (R605) -/

/-- Whenever `EV.row_stale` is false in `t`, it was false in `s`, and `ROW` is as it was. -/
def RowUnlessStale (s t : State) : Prop := t.ev.rowStale = false → s.ev.rowStale = false ∧ t.ula.row = s.ula.row

theorem RowUnlessStale.trans {s t u : State} (h : RowUnlessStale s t) (k : RowUnlessStale t u) : RowUnlessStale s u := by
  intro stale
  obtain ⟨stale, row⟩ := k stale
  obtain ⟨stale, row'⟩ := h stale
  exact ⟨stale, row.trans row'⟩

theorem RowUnlessStale.of_eq {s t : State} (stale : t.ev.rowStale = s.ev.rowStale) (row : t.ula.row = s.ula.row) :
    RowUnlessStale s t := fun h => ⟨stale ▸ h, row⟩

theorem RowUnlessStale.of_stale {s t : State} (stale : t.ev.rowStale = true) : RowUnlessStale s t :=
  fun h => absurd (stale.symm.trans h) nofun

theorem PoolOnly.rowUnlessStale {s t u : State} (h : PoolOnly t u) (k : RowUnlessStale s t) : RowUnlessStale s u :=
  k.trans (.of_eq (congrArg (·.rowStale) h.ev) (congrArg (·.row) h.ula))

theorem poolOut_blankDisplay (s : State) (toBlack : Bool) : PoolOut s (s.blankDisplay toBlack) := by
  refine (poolOut_renTurn s).andThen fun t => poolOut_locked fun p q after ok u => ?_
  obtain ⟨⟩ := ok
  exact .refl u

theorem syncLoss_rowUnlessStale {s t : State} (e : s.syncLoss = .next t) : RowUnlessStale s t := by
  obtain ⟨u, blanked, rest⟩ := andThen_eq_next e
  obtain ⟨⟩ := rest
  exact ((poolOut_blankDisplay s _ u blanked).rowUnlessStale (.of_eq rfl rfl)).trans (.of_eq rfl rfl)

theorem clamp_rowUnlessStale {s t : State} (e : s.clamp = .next t) : RowUnlessStale s t := by
  have line : RowUnlessStale s s.clampLine := by
    rw [clampLine_eq]
    exact .of_eq rfl rfl
  unfold State.clamp at e
  split at e
  · exact line.trans (syncLoss_rowUnlessStale e)
  · obtain ⟨⟩ := e
    exact line

theorem tickA_rowUnlessStale (s : State) : RowUnlessStale s s.tickA := by
  rw [tickOfVariantA s]
  by_cases edge : (s.ula.hsCounter + 1) % s.cfg.lineTs = s.cfg.hsOffset
  · exact .of_stale (by simp [edge])
  · exact .of_eq (by simp [edge]) (if_neg edge)

theorem countB_rowUnlessStale (s : State) : RowUnlessStale s (s.setUla (s.ula.countB s.cfg)) := by
  rw [countB_eq]
  exact .of_eq rfl rfl

theorem classifyB_rowUnlessStale {s t : State} (e : s.classifyB = .next t) : RowUnlessStale s t := by
  by_cases long : s.cfg.vsyncThreshold ≤ s.ula.syncLen.toNat
  · have handed := (classifyB_long (s := s) long).symm.trans e
    exact (poolOut_fieldHandOff _ t handed).rowUnlessStale (.of_eq rfl rfl)
  · rw [classifyB_short long] at e
    obtain ⟨⟩ := e
    exact .of_stale rfl

theorem tickB_rowUnlessStale {s t : State} (e : s.tickB = .next t) : RowUnlessStale s t := by
  rw [tickB_eq] at e
  split at e
  · exact (countB_rowUnlessStale s).trans (classifyB_rowUnlessStale e)
  · obtain ⟨⟩ := e
    exact countB_rowUnlessStale s

theorem tick_rowUnlessStale {s t : State} (e : s.tick = .next t) : RowUnlessStale s t := by
  unfold State.tick at e
  split at e
  · exact (tickA_rowUnlessStale s).trans (clamp_rowUnlessStale e)
  · obtain ⟨u, ticked, clamped⟩ := andThen_eq_next e
    exact (tickB_rowUnlessStale ticked).trans (clamp_rowUnlessStale clamped)

theorem ticks_rowUnlessStale {n : Nat} {s t : State} (e : ticks n s = .next t) : RowUnlessStale s t := by
  induction n generalizing s with
  | zero =>
    obtain ⟨⟩ := e
    exact .of_eq rfl rfl
  | succ n ih =>
    obtain ⟨u, first, rest⟩ := andThen_eq_next e
    exact (tick_rowUnlessStale first).trans (ih rest)

theorem syncAdvance_rowUnlessStale {n : Nat} {s t : State} (e : s.syncAdvance n = .next t) : RowUnlessStale s t := by
  obtain ⟨u, ticked, rest⟩ := andThen_eq_next e
  obtain ⟨⟩ := rest
  exact (ticks_rowUnlessStale ticked).trans (.of_eq rfl rfl)

/-! ### The bounds over a T-state (R606, R607, R655) -/

/-- The raster position between a tick and the clamp; no tick passes both limits at once. -/
def RasterTicked (c : Config) (x y : Int) : Prop :=
  0 ≤ x ∧ x < c.lineMax + c.xPerT ∧ 0 ≤ y ∧ y ≤ c.fieldMaxLines ∧ (x < c.lineMax ∨ y < c.fieldMaxLines)

theorem limits_pos {s : State} (inv : Safety.Inv s) : 0 < s.cfg.lineMax ∧ 0 < s.cfg.fieldMaxLines := by
  have parameters := inv.config.parameters
  simp only [Config.parametersOk, Bool.and_eq_true, decide_eq_true_eq] at parameters
  tauto

/-- A sum that stays in the signed range is exact (R11, R40). -/
theorem toInt_add_ofNat {v : BitVec 32} {n : Nat} (nonneg : 0 ≤ v.toInt) (fits : v.toInt + n < 2 ^ 31) :
    (v + BitVec.ofNat 32 n).toInt = v.toInt + n := by
  have := v.isLt
  simp only [BitVec.toInt_eq_toNat_cond, BitVec.toNat_add, BitVec.toNat_ofNat] at *
  split_ifs at * <;> omega

theorem toInt_succ {v : BitVec 32} (nonneg : 0 ≤ v.toInt) (fits : v.toInt + 1 < 2 ^ 31) : (v + 1).toInt = v.toInt + 1 :=
  toInt_add_ofNat (n := 1) nonneg fits

section Tick

variable {s t : State} (inv : Safety.Inv s) (fits : RasterFits s.cfg) (bounds : RasterInBounds s)

include inv fits bounds

omit inv in
/-- A tick without an edge goes one step along the line. -/
theorem rasterTicked_step :
    RasterTicked s.cfg (s.ula.rasterX + BitVec.ofNat 32 s.cfg.xPerT).toInt s.ula.rasterY.toInt := by
  obtain ⟨x0, x1, y0, y1⟩ := bounds
  obtain ⟨fitsX, -⟩ := fits
  rw [toInt_add_ofNat x0 (by omega)]
  exact ⟨by omega, by omega, y0, y1.le, .inr y1⟩

/-- A horizontal edge starts the next line. -/
theorem rasterTicked_line : RasterTicked s.cfg (0#32).toInt (s.ula.rasterY + 1).toInt := by
  obtain ⟨-, -, y0, y1⟩ := bounds
  obtain ⟨-, fitsY⟩ := fits
  obtain ⟨posX, -⟩ := limits_pos inv
  rw [toInt_succ y0 (by omega), BitVec.toInt_zero]
  exact ⟨le_rfl, by omega, by omega, by omega, .inl (by omega)⟩

/-- A vertical pulse of variant B starts the field. -/
theorem rasterTicked_field :
    RasterTicked s.cfg (s.ula.rasterX + BitVec.ofNat 32 s.cfg.xPerT).toInt (0#32).toInt := by
  obtain ⟨x0, x1, -⟩ := rasterTicked_step fits bounds
  obtain ⟨-, posY⟩ := limits_pos inv
  rw [BitVec.toInt_zero]
  exact ⟨x0, x1, le_rfl, by omega, .inr (by omega)⟩

theorem rasterTicked_tickA : RasterTicked s.cfg s.tickA.ula.rasterX.toInt s.tickA.ula.rasterY.toInt := by
  rw [tickOfVariantA s]
  by_cases edge : (s.ula.hsCounter + 1) % s.cfg.lineTs = s.cfg.hsOffset
  · simp only [if_pos edge]
    exact rasterTicked_line inv fits bounds
  · simp only [if_neg edge]
    exact rasterTicked_step fits bounds

theorem rasterTicked_tickB (e : s.tickB = .next t) : RasterTicked s.cfg t.ula.rasterX.toInt t.ula.rasterY.toInt := by
  rw [tickB_eq, countB_eq] at e
  generalize latchStep s.cfg s.ula.latches = o at e
  split at e
  · by_cases long : s.cfg.vsyncThreshold ≤ o.latches.syncLen.toNat
    · rw [classifyB_long long] at e
      rw [(poolOut_fieldHandOff _ t e).ula]
      exact rasterTicked_field inv fits bounds
    · rw [classifyB_short long] at e
      obtain ⟨⟩ := e
      exact rasterTicked_line inv fits bounds
  · obtain ⟨⟩ := e
    exact rasterTicked_step fits bounds

end Tick

theorem syncLoss_ula {s t : State} (e : s.syncLoss = .next t) : t.ula = { s.ula with rasterY := 0 } := by
  obtain ⟨u, blanked, rest⟩ := andThen_eq_next e
  obtain ⟨⟩ := rest
  rw [State.newField, (poolOut_blankDisplay s _ u blanked).ula]

/-- The clamps bring a position that a tick leaves back into the bounds. -/
theorem clamp_inBounds {s t : State} (inv : Safety.Inv s) (fits : RasterFits s.cfg)
    (ticked : RasterTicked s.cfg s.ula.rasterX.toInt s.ula.rasterY.toInt) (e : s.clamp = .next t) : RasterInBounds t := by
  obtain ⟨x0, -, y0, y1, apart⟩ := ticked
  obtain ⟨posX, posY⟩ := limits_pos inv
  obtain ⟨-, fitsY⟩ := fits
  have cfg := ((Safety.clamp_ok inv).step t e).cfg
  have line : 0 ≤ s.clampLine.ula.rasterX.toInt ∧ s.clampLine.ula.rasterX.toInt < s.cfg.lineMax ∧
      0 ≤ s.clampLine.ula.rasterY.toInt := by
    rw [clampLine_eq]
    by_cases late : (s.cfg.lineMax : Int) ≤ s.ula.rasterX.toInt
    · simp only [if_pos late]
      rw [toInt_succ y0 (by omega)]
      exact ⟨le_rfl, Int.natCast_pos.2 posX, by omega⟩
    · simp only [if_neg late]
      omega
  obtain ⟨lineX0, lineX1, lineY0⟩ := line
  unfold RasterInBounds
  rw [cfg]
  unfold State.clamp at e
  split at e
  next =>
    rw [syncLoss_ula e]
    exact ⟨lineX0, lineX1, le_rfl, Int.natCast_pos.2 posY⟩
  next below =>
    obtain ⟨⟩ := e
    exact ⟨lineX0, lineX1, lineY0, Int.not_le.1 below⟩

theorem tick_inBounds {s t : State} (inv : Safety.Inv s) (fits : RasterFits s.cfg) (bounds : RasterInBounds s)
    (e : s.tick = .next t) : RasterInBounds t := by
  unfold State.tick at e
  split at e
  · have step := Safety.tickA_step inv
    exact clamp_inBounds step.inv (step.cfg ▸ fits) (step.cfg ▸ rasterTicked_tickA inv fits bounds) e
  · obtain ⟨u, ticked, clamped⟩ := andThen_eq_next e
    have step := (Safety.tickB_ok inv).step u ticked
    exact clamp_inBounds step.inv (step.cfg ▸ fits) (step.cfg ▸ rasterTicked_tickB inv fits bounds ticked) clamped

theorem ticks_inBounds {n : Nat} {s t : State} (inv : Safety.Inv s) (fits : RasterFits s.cfg) (bounds : RasterInBounds s)
    (e : ticks n s = .next t) : RasterInBounds t := by
  induction n generalizing s with
  | zero =>
    obtain ⟨⟩ := e
    exact bounds
  | succ n ih =>
    obtain ⟨u, first, rest⟩ := andThen_eq_next e
    have step := (Safety.tick_ok inv).step u first
    exact ih step.inv (step.cfg ▸ fits) (tick_inBounds inv fits bounds first) rest

/-! ### The raster over an instruction (R141) -/

/-- What an instruction or an interrupt entry may do to the raster: `RasterY` becomes 0 at the end of a vertical sync pulse
(R608, R615). -/
structure RasterKept (s t : State) : Prop where
  cfg : t.cfg = s.cfg
  row : t.ula.row = s.ula.row
  rasterX : t.ula.rasterX = s.ula.rasterX
  rasterY : t.ula.rasterY = s.ula.rasterY ∨ t.ula.rasterY = 0

namespace RasterKept

theorem refl (s : State) : RasterKept s s := ⟨rfl, rfl, rfl, .inl rfl⟩

theorem trans {s t u : State} (h : RasterKept s t) (k : RasterKept t u) : RasterKept s u where
  cfg := k.cfg.trans h.cfg
  row := k.row.trans h.row
  rasterX := k.rasterX.trans h.rasterX
  rasterY := k.rasterY.elim (fun same => h.rasterY.imp same.trans same.trans) .inr

theorem ofSame {s t : State} (h : SameBlock s t) : RasterKept s t := by
  refine ⟨h.cfg, ?_, ?_, .inl ?_⟩ <;> rw [h.ula]

theorem ofPoolOnly {s t : State} (h : PoolOnly s t) : RasterKept s t := by
  obtain ⟨_, _, _, _, _, _, rfl⟩ := h
  exact ⟨rfl, rfl, rfl, .inl rfl⟩

end RasterKept

theorem RasterKept.inBounds {s t : State} (h : RasterKept s t) (inv : Safety.Inv s) (bounds : RasterInBounds s) :
    RasterInBounds t := by
  obtain ⟨x0, x1, y0, y1⟩ := bounds
  obtain ⟨-, posY⟩ := limits_pos inv
  unfold RasterInBounds
  rw [h.cfg, h.rasterX]
  obtain same | zero := h.rasterY
  · rw [same]
    exact ⟨x0, x1, y0, y1⟩
  · rw [zero]
    exact ⟨x0, x1, le_rfl, Int.natCast_pos.2 posY⟩

/-- Whatever next state the outcome is, the raster in it is as `RasterKept` says. -/
structure KeepsRaster (s : State) (o : Out) : Prop where
  kept : ∀ t, o = .next t → RasterKept s t

namespace KeepsRaster

theorem next {s t : State} (h : RasterKept s t) : KeepsRaster s (.next t) := by
  refine ⟨?_⟩
  rintro _ ⟨⟩
  exact h

theorem fault (s : State) (r : Fault) : KeepsRaster s (.fault r) := ⟨fun _ e => by cases e⟩

theorem refused (s : State) (r : Refusal) : KeepsRaster s (.refused r) := ⟨fun _ e => by cases e⟩

theorem after {s t : State} {o : Out} (h : RasterKept s t) (k : KeepsRaster t o) : KeepsRaster s o :=
  ⟨fun u e => h.trans (k.kept u e)⟩

theorem andThen {s : State} {o : Out} {f : State → Out} (h : KeepsRaster s o) (k : ∀ t, KeepsRaster t (f t)) :
    KeepsRaster s (andThen o f) := by
  refine ⟨fun u e => ?_⟩
  obtain ⟨t, first, rest⟩ := andThen_eq_next e
  exact (h.kept t first).trans ((k t).kept u rest)

theorem same {s t : State} (h : SameBlock s t) : KeepsRaster s (.next t) := next (.ofSame h)

theorem finish (n : Nat) (s : State) : KeepsRaster s (finish n s) := same ((SameBlock.refl s).took n)

end KeepsRaster

/-! #### Port events -/

theorem vsyncSet_kept (s : State) : RasterKept s s.vsyncSet := by
  unfold State.vsyncSet
  split <;> exact ⟨rfl, rfl, rfl, .inl rfl⟩

theorem fieldBoundary_keepsRaster (s : State) : KeepsRaster s s.fieldBoundary := by
  have begun : RasterKept s s.newField := ⟨rfl, rfl, rfl, .inr rfl⟩
  exact ⟨fun t e => begun.trans (.ofPoolOnly (poolOut_fieldHandOff s.newField t e))⟩

theorem vsyncClear_keepsRaster (s : State) : KeepsRaster s s.vsyncClear := by
  unfold State.vsyncClear
  split
  · have off : RasterKept s (s.setUla { s.ula with vsyncState := false }) := ⟨rfl, rfl, rfl, .inl rfl⟩
    have filled := off.trans (.ofPoolOnly (poolOnly_fillPulse _))
    dsimp only
    split
    · exact .after filled (fieldBoundary_keepsRaster _)
    · exact .next filled
  · exact .next (.refl s)

theorem syncAct_keepsRaster (s : State) (act : SyncAct) : KeepsRaster s (s.syncAct act) := by
  unfold State.syncAct
  split
  · exact .next (vsyncSet_kept s)
  · exact vsyncClear_keepsRaster s
  all_goals exact .next ⟨rfl, rfl, rfl, .inl rfl⟩

theorem portEvents_keepsRaster (access : PortAccess) (port : Word) (rules : List PortRule) (s : State) :
    KeepsRaster s (portEvents access port rules s) := by
  induction rules generalizing s with
  | nil => exact .next (.refl s)
  | cons r rs ih =>
    refine .andThen ?_ ih
    split
    · exact syncAct_keepsRaster s r.act
    · exact .next (.refl s)

/-! #### Inputs and outputs -/

theorem portRead_keepsRaster (s : State) (port : Word) {use : Byte → State → State} (plain : ∀ v t, SameBlock t (use v t)) :
    KeepsRaster s (s.portRead port use) :=
  (portEvents_keepsRaster .read port _ s).andThen fun t => .same ((SameBlock.refl t).drawn.trans (plain _ _))

theorem portWrite_keepsRaster (s : State) (port : Word) (v : Byte) : KeepsRaster s (s.portWrite port v) := by
  refine (portEvents_keepsRaster .write port _ s).andThen fun t => .next ?_
  unfold State.soundHook
  split <;> exact ⟨rfl, rfl, rfl, .inl rfl⟩

theorem input_keepsRaster (n : Nat) (s : State) (port : Word) {use : Byte → State → State}
    (plain : ∀ v t, SameBlock t (use v t)) : KeepsRaster s (input n port use s) :=
  (portRead_keepsRaster s port plain).andThen (.finish n)

theorem output_keepsRaster (n : Nat) (s : State) (port : Word) (v : Byte) : KeepsRaster s (output n port v s) :=
  (portWrite_keepsRaster s port v).andThen (.finish n)

theorem inBlock_keepsRaster (s : State) (step : Word) : KeepsRaster s (s.inBlock step) :=
  portRead_keepsRaster s _ fun _ t => ((((SameBlock.refl t).memWrite _ _).setCpu _).setF _).drawn

theorem outBlock_keepsRaster (s : State) (step : Word) : KeepsRaster s (s.outBlock step) :=
  .after (.ofSame ((SameBlock.refl s).setReg .b _)) <|
    (portWrite_keepsRaster _ _ _).andThen fun t => .same (((SameBlock.refl t).setHl _).setF _).drawn

theorem finishIoBlock_keepsRaster (s : State) : KeepsRaster s (finishIoBlock s) := by
  unfold finishIoBlock
  split
  · exact .same (((SameBlock.refl s).setPc _).took 21)
  · exact .finish 16 s

theorem exec_port_keepsRaster {i : Instr} (s : State) (port : i.isPort = true) : KeepsRaster s (exec i s) := by
  cases i <;> first | (exact absurd port Bool.false_ne_true) | skip
  case outNA | outCR | outC0 => exact output_keepsRaster _ s _ _
  case inAN => exact input_keepsRaster _ s _ fun v t => (SameBlock.refl t).setReg .a v
  case inRC r => exact input_keepsRaster _ s _ fun v t => ((SameBlock.refl t).setReg r v).setF _
  case inFC => exact input_keepsRaster _ s _ fun v t => (SameBlock.refl t).setF _
  case ini | ind => exact (inBlock_keepsRaster s _).andThen (.finish 16)
  case outi | outd => exact (outBlock_keepsRaster s _).andThen (.finish 16)
  case inir | indr => exact (inBlock_keepsRaster s _).andThen finishIoBlock_keepsRaster
  case otir | otdr => exact (outBlock_keepsRaster s _).andThen finishIoBlock_keepsRaster

/-! #### Every row -/

theorem exec_plain_keepsRaster {i : Instr} (s : State) (plain : i.isPrefixRow = false) : KeepsRaster s (exec i s) := by
  cases port : i.isPort with
  | true => exact exec_port_keepsRaster s port
  | false =>
    obtain ⟨t, e, h⟩ := exec_quiet i s port plain
    rw [e]
    exact .same h

theorem withExtra_keepsRaster {s : State} {o : Out} (n : Nat) (h : KeepsRaster s o) : KeepsRaster s (withExtra n o) :=
  h.andThen fun t => .same ((SameBlock.refl t).took _)

section Prefix

variable {go : Instr → State → Out} (hgo : ∀ i s, KeepsRaster s (go i s))

include hgo

theorem afterBytes_keepsRaster (lead : List Byte) (s : State) : KeepsRaster s (afterBytes go lead s) := by
  unfold afterBytes
  split
  · exact .after (.ofSame ((SameBlock.refl s).fetched _ _)) (hgo _ _)
  · exact .refused s _

theorem afterBytes_setPfx_keepsRaster (lead : List Byte) (s : State) (p : Pfx) :
    KeepsRaster s (afterBytes go lead (s.setPfx p)) :=
  .after (.ofSame ((SameBlock.refl s).setPfx p)) (afterBytes_keepsRaster hgo lead _)

theorem overIndex_keepsRaster (x : Idx) (s : State) : KeepsRaster s (overIndex go x s) := by
  unfold overIndex
  split
  · exact withExtra_keepsRaster 4 (afterBytes_setPfx_keepsRaster hgo _ s _)
  · exact afterBytes_setPfx_keepsRaster hgo _ s _

theorem rowMeaning_keepsRaster (i : Instr) (s : State) : KeepsRaster s (rowMeaning go i s) := by
  cases row : i.isPrefixRow with
  | false =>
    rw [Safety.rowMeaning_eq_exec go i s row]
    exact exec_plain_keepsRaster s row
  | true =>
    cases i <;> first | (exact absurd row Bool.false_ne_true) | skip
    case prefixCb => exact afterBytes_keepsRaster hgo [0xCB] s
    case prefixEd => exact afterBytes_keepsRaster hgo [0xED] s
    case prefixDd | prefixFd => exact overIndex_keepsRaster hgo _ s
    case prefixIdxCb => exact afterBytes_setPfx_keepsRaster hgo _ s _
    case indexPrefixNoEffect => exact withExtra_keepsRaster 4 (afterBytes_setPfx_keepsRaster hgo _ s _)

end Prefix

theorem runAfterPrefix_keepsRaster (n : Nat) (i : Instr) (s : State) : KeepsRaster s (runAfterPrefix n i s) := by
  induction n generalizing i s with
  | zero => exact rowMeaning_keepsRaster (fun _ t => .fault t _) i s
  | succ n ih => exact rowMeaning_keepsRaster ih i s

theorem exec_keepsRaster (i : Instr) (s : State) : KeepsRaster s (exec i s) := by
  rw [Safety.exec_eq_rowMeaning]
  exact rowMeaning_keepsRaster (runAfterPrefix_keepsRaster prefixLimit) i s

/-! #### The step of the CPU and the whole cycle (R140, R141) -/

theorem leaveHalt_kept (s : State) : RasterKept s s.leaveHalt := by
  unfold State.leaveHalt
  split <;> exact ⟨rfl, rfl, rfl, .inl rfl⟩

theorem enterHandler_kept (s : State) (target : State → Word) (cost : Nat) : RasterKept s (s.enterHandler target cost) :=
  .ofSame ((((SameBlock.refl s).push16 _).setPc _).took cost)

theorem setCpu_kept (s : State) (c : Cpu) : RasterKept s (s.setCpu c) := .ofSame ((SameBlock.refl s).setCpu c)

theorem nmiEntry_kept (s : State) : RasterKept s s.nmiEntry := by
  have taken : RasterKept s { s with ula := { s.ula with nmiPending := false } } := ⟨rfl, rfl, rfl, .inl rfl⟩
  have running := taken.trans (leaveHalt_kept _)
  unfold State.nmiEntry
  exact (running.trans (setCpu_kept _ _)).trans (enterHandler_kept _ _ _)

theorem ulaIntAck_kept (s : State) : RasterKept s s.ulaIntAck := by
  unfold State.ulaIntAck
  split <;> exact ⟨rfl, rfl, rfl, .inl rfl⟩

theorem intEntry_kept (s : State) : RasterKept s s.intEntry := by
  unfold State.intEntry
  have ready := fun c => ((leaveHalt_kept s).trans (setCpu_kept _ c)).trans (ulaIntAck_kept _)
  dsimp only
  split <;> exact (ready _).trans (enterHandler_kept _ _ _)

theorem videoByte_kept (s : State) (b : Byte) (a : Word) : RasterKept s (s.videoByte b a) := by
  unfold State.videoByte State.videoAttr
  split
  · exact .refl s
  · dsimp only
    split_ifs <;> exact ⟨rfl, rfl, rfl, .inl rfl⟩

theorem runInstr_keepsRaster (s : State) : KeepsRaster s s.runInstr := by
  unfold State.runInstr
  split
  next i len _ =>
    have fetched : SameBlock s (s.fetchedInstr len) := ((SameBlock.refl s).fetched _ _).setPfx _
    exact .after (.ofSame fetched) ((exec_keepsRaster i _).andThen fun t => .same ((SameBlock.refl t).setPfx _))
  next => exact .refused s _

theorem stepCpu_keepsRaster (s : State) : KeepsRaster s s.stepCpu := by
  have begun : RasterKept s s.beginInstr := setCpu_kept s _
  unfold State.stepCpu State.stepInstr
  split_ifs
  · exact .next (nmiEntry_kept s)
  · exact .next (intEntry_kept s)
  · have fetched : RasterKept s.beginInstr (s.beginInstr.fetched 1 1) := .ofSame ((SameBlock.refl _).fetched 1 1)
    exact .after ((begun.trans fetched).trans (videoByte_kept _ _ _)) (exec_keepsRaster .nop _)
  · exact .after begun (runInstr_keepsRaster s.beginInstr)

theorem counterAdvance_kept (s : State) (n : Nat) : RasterKept s (s.counterAdvance n) := by
  rw [counterAdvance_frame]
  exact ⟨rfl, rfl, rfl, .inl rfl⟩

theorem emuCycle_inBounds {s t : State} (inv : Safety.Inv s) (fits : RasterFits s.cfg) (bounds : RasterInBounds s)
    (e : s.emuCycle = .next t) : RasterInBounds t := by
  obtain ⟨u, stepped, ended⟩ := andThen_eq_next e
  obtain ⟨w, advanced, seen⟩ := andThen_eq_next ended
  obtain ⟨v, ticked, refreshed⟩ := andThen_eq_next advanced
  obtain ⟨⟩ := seen
  obtain ⟨⟩ := refreshed
  have begun : Safety.Inv s.beginCycle := (Safety.UlaStep.ula inv s.ula SyncEvent.none).inv
  have invU := ((Safety.stepCpu_ok decode_total begun).step u stepped).inv
  have kept : RasterKept s (u.counterAdvance u.cycles) :=
    .trans (t := s.beginCycle) ⟨rfl, rfl, rfl, .inl rfl⟩
      (((stepCpu_keepsRaster s.beginCycle).kept u stepped).trans (counterAdvance_kept u u.cycles))
  have bounded : RasterInBounds v :=
    ticks_inBounds (Safety.counterAdvance_inv u.cycles invU) (kept.cfg ▸ fits) (kept.inBounds inv bounds) ticked
  exact bounded

/-! ### The obligation (R606, R607, R655) -/

/-- Settles O51: a tick leaves the position where the clamps bring it back; an instruction can only start a field; and `ROW`
changes at a horizontal edge only, which makes it stale. -/
theorem rasterStaysInBounds : Obligations.RasterStaysInBounds := by
  refine ⟨fun s => ?clamp, fun s inv => syncLoss_spec inv, fun s t => tick_inBounds, fun s inv fits bounds => ?tickA,
    fun s t inv fits bounds e => ?tickB, fun s t => emuCycle_inBounds,
    fun s t c _ e stale => (syncAdvance_rowUnlessStale e stale).2, fun s t e => ((stepCpu_keepsRaster s).kept t e).row⟩
  case clamp =>
    intro late y line
    have clamped : s.clampLine = line := clampLine_eq s
    have limit : s.clamp = if (s.cfg.fieldMaxLines : Int) ≤ y.toInt then line.syncLoss else .next line := by
      rw [State.clamp, clamped]
    exact ⟨fun below => limit.trans (if_neg (Int.not_le.2 below)), fun above => limit.trans (if_pos above)⟩
  case tickA =>
    obtain ⟨x0, x1, y0, y1, -⟩ := rasterTicked_tickA inv fits bounds
    exact ⟨x0, x1, y0, y1⟩
  case tickB =>
    obtain ⟨x0, x1, y0, y1, -⟩ := rasterTicked_tickB inv fits bounds e
    exact ⟨x0, x1, y0, y1⟩

end Sys2Proof.Proofs
end

section
/-! The invariant of a well-formed state (R39, R45, R72, R707): power-on of valid parameters leaves it, and every step of every agent
keeps it. -/

namespace Sys2Proof.Proofs

open Machine Claims

/-! ### Power-on (R51, R703, R870) -/

theorem poolOk_powerOn {c : Config} (pos : 0 < c.poolCap) : Safety.PoolOk c.poolCap (Pool.powerOn c) where
  roles := by simp [Safety.handlesInRoles, Pool.powerOn]
  pendMax := Nat.zero_le _
  shownIn := pos
  lockFree := rfl
  chroma := List.length_replicate

theorem storageOk_powerOn (c : Config) {rom : Memory} (wf : rom.wf = true) : Safety.StorageOk (State.powerOn c rom) where
  phys := wf
  pix _ mem := by rw [List.eq_of_mem_replicate mem]; rfl
  chroma _ mem := by rw [List.eq_of_mem_replicate mem]; rfl
  pixLen := List.length_replicate
  chromaLen := List.length_replicate

/-- Parameters that pass the tests of power-on give a well-formed first state. -/
theorem inv_powerOn {c : Config} {rom : Memory} (parameters : Config.parametersOk c = true) (capacity : Config.poolCapOk c = true)
    (inside : Config.pagesInside c c.ptInit = true) (protect : Config.romProtected c c.ptInit = true) (wf : rom.wf = true) :
    Safety.Inv (State.powerOn c rom) where
  config := ⟨parameters, capacity, inside, inside, protect, protect⟩
  storage := storageOk_powerOn c wf
  pool := by
    simp only [Config.poolCapOk, Bool.and_eq_true, decide_eq_true_eq] at capacity
    exact poolOk_powerOn capacity.1
  draw := rfl
  counter := by
    have modulus : 23 < c.fieldModulus := by
      simp only [Config.parametersOk, Bool.and_eq_true, decide_eq_true_eq] at parameters
      omega
    exact Nat.lt_of_le_of_lt (Nat.zero_le 23) modulus

/-- Settles O3: the default parameters pass the tests of power-on. -/
theorem resetIsWellFormed : Obligations.ResetIsWellFormed :=
  inv_powerOn (by decide) (by decide) (by decide) (by decide) rfl

/-! ### The steps of the three agents (R7, R8, R140) -/

theorem renOp_inv {s t : State} {op : RenOp} (inv : Safety.Inv s) (e : s.renOp op = .next t) : Safety.Inv t := by
  obtain ⟨u, answered, out, ren, -⟩ := Safety.renOp_ok op inv.toOut
  obtain rfl : u = t := by simpa [answered] using e
  rw [← ren.draw] at out
  exact out.toInv

theorem act_inv {s t : State} {a : Action} (inv : Safety.Inv s) (e : s.act a = .next t) : Safety.Inv t := by
  cases a with
  | ren op => exact renOp_inv inv e
  | host op => exact Safety.hostOp_inv inv e

theorem startUp_inv {s t : State} (inv : Safety.Inv s) (draw : s.draw = none) (e : s.startUp = .next t) : Safety.Inv t := by
  unfold State.startUp at e
  split at e
  · have out := inv.toOut
    rw [draw] at out
    exact ((Safety.freshDraw_ok out).1.step t e).inv
  · exact renOp_inv inv e

theorem endCycle_inv {s t : State} (inv : Safety.Inv s) (e : s.endCycle = .next t) : Safety.Inv t := by
  obtain ⟨u, advanced, seen⟩ := andThen_eq_next e
  have advance := (Safety.syncAdvance_ok s.cycles (Safety.counterAdvance_inv s.cycles inv)).step u advanced
  cases seen
  exact (advance.andUla u.ula _).inv

theorem emuCycle_inv {s t : State} (inv : Safety.Inv s) (e : s.emuCycle = .next t) : Safety.Inv t := by
  have begun : Safety.Inv s.beginCycle := (Safety.UlaStep.ula inv s.ula SyncEvent.none).inv
  obtain ⟨u, stepped, ended⟩ := andThen_eq_next e
  exact endCycle_inv ((Safety.stepCpu_ok decode_total begun).step u stepped).inv ended

/-- The agenda is no part of the invariant (R8). -/
theorem inv_withAgenda {s : State} (inv : Safety.Inv s) (rest : List Action) : Safety.Inv { s with agenda := rest } :=
  { inv with config := { inv.config with }, storage := { inv.storage with } }

/-- Settles O4: a step is an action of REN or HOST, the start of EMU, or an `EmuCycle`, and each keeps the invariant. -/
theorem everyStepKeepsInvariant : Obligations.EveryStepKeepsInvariant := by
  intro s t inv e
  unfold step at e
  split at e
  next => exact act_inv (inv_withAgenda inv _) e
  next =>
    split at e
    next => exact emuCycle_inv inv e
    next draw => exact startUp_inv inv draw e

end Sys2Proof.Proofs
end

section
/-! The frame-buffer pool (R700 to R740): how often a handle has a role after each operation, what each operation does case by case,
and the obligations about them. -/

namespace Sys2Proof.Proofs

open Machine Claims
open Safety (roleCount)

/-! ### One role for each handle (R707) -/

theorem oneRoleEach_iff (cap : Nat) (p : Pool) : OneRoleEach cap p ↔ ∀ n, roleCount p n = if n < cap then 1 else 0 :=
  Safety.roles_iff_count cap p

/-- A handle that is free, pending, current or previous, and has one role, is not outstanding. -/
theorem not_mem_out {p : Pool} {k : Nat} (one : roleCount p k ≤ 1)
    (role : 0 < p.free.count k + p.pend.count k + p.cur.toList.count k + p.prev.toList.count k) : k ∉ p.out := by
  intro mem
  have out := List.count_pos_iff.2 mem
  unfold roleCount at one
  omega

/-! ### The operations of the render context (R719, R725, R726) -/

theorem roleCount_promote (p : Pool) (n : Nat) : roleCount p.promote n = roleCount p n := by
  unfold Pool.promote roleCount
  split
  next => rfl
  next k rest pend =>
    split
    · simp [pend, List.count_cons]; omega
    · simp [pend, List.count_cons]; omega

theorem pend_promote_le (p : Pool) : p.promote.pend.length ≤ p.pend.length := by
  unfold Pool.promote
  split
  next => exact Nat.le_refl _
  next k rest pend => simp [pend]

theorem roleCount_redisplay (p : Pool) (n : Nat) : roleCount p.redisplay n = roleCount p n := by
  unfold Pool.redisplay roleCount
  split
  next => rfl
  next k prev => simp [prev]; omega

theorem pend_redisplay (p : Pool) : p.redisplay.pend = p.pend := by
  unfold Pool.redisplay
  split <;> rfl

/-- `advance_frame()` promotes or displays again, and else sets `NO_SKIP` only. -/
theorem advanceFrame_cases (p : Pool) :
    p.advanceFrame = p.promote ∨ p.advanceFrame = { p.promote with noSkip := true } ∨
      p.advanceFrame = { p.redisplay with noSkip := false } := by
  unfold Pool.advanceFrame
  split_ifs <;> simp

theorem roleCount_advanceFrame (p : Pool) (n : Nat) : roleCount p.advanceFrame n = roleCount p n := by
  obtain e | e | e := advanceFrame_cases p <;> rw [e]
  · exact roleCount_promote p n
  · exact roleCount_promote p n
  · exact roleCount_redisplay p n

theorem pend_advanceFrame_le (p : Pool) : p.advanceFrame.pend.length ≤ p.pend.length := by
  obtain e | e | e := advanceFrame_cases p <;> rw [e]
  · exact pend_promote_le p
  · exact pend_promote_le p
  · exact (congrArg List.length (pend_redisplay p)).le

/-! ### The operations of the emulation context (R710, R715 to R718, R740) -/

theorem roleCount_blank (p : Pool) (toBlack : Bool) (n : Nat) : roleCount (p.blank toBlack) n = roleCount p n := by
  simp [roleCount, Pool.blank, List.count_append]
  omega

theorem acquireFree_keeps {p q : Pool} {k : Nat} (one : roleCount p k ≤ 1) (e : p.acquireFree = some (k, q)) :
    (∀ n, roleCount q n = roleCount p n) ∧ q.pend.length ≤ p.pend.length := by
  have inserted : k ∉ p.out → ∀ n, (outInsert k p.out).count n = p.out.count n + if k = n then 1 else 0 :=
    fun notOut n => Safety.count_outInsert k n p.out notOut
  unfold Pool.acquireFree at e
  split at e
  next rest free =>
    cases e
    have count := inserted (not_mem_out one (by simp [free]))
    refine ⟨fun n => ?_, Nat.le_refl _⟩
    simp [roleCount, count, free, List.count_cons]; omega
  next free prev =>
    cases e
    have count := inserted (not_mem_out one (by simp [prev]))
    refine ⟨fun n => ?_, Nat.le_refl _⟩
    simp [roleCount, count, prev, List.count_cons]; omega
  next free prev cur =>
    split at e
    next m rest pend =>
      cases e
      have count := inserted (not_mem_out one (by simp [cur]))
      refine ⟨fun n => ?_, by simp [pend]⟩
      simp [roleCount, count, cur, pend, List.count_cons]; omega
    next pend =>
      cases e
      have count := inserted (not_mem_out one (by simp [cur]))
      refine ⟨fun n => ?_, Nat.le_refl _⟩
      simp [roleCount, count, cur, List.count_cons]; omega
  next => nomatch e

/-- The handle handed over leaves `OUT` (R715). -/
theorem roleCount_handedOver {p : Pool} {k : Nat} (colour coloured : Bool) (one : roleCount p k ≤ 1)
    (out : k ∈ p.out) (n : Nat) :
    roleCount (Safety.handedOver p colour k coloured) n + (if k = n then 1 else 0) = roleCount p n := by
  have once := List.count_pos_iff.2 out
  simp only [roleCount, Safety.handedOver, Safety.count_filter_ne] at one ⊢
  split
  next eq => subst eq; omega
  next => omega

/-- The buffer shown before goes to the free list or, not released, to `OUT` (R717). -/
theorem roleCount_submitImmediate {p : Pool} {k : Nat} (release : Bool) (notOut : ∀ c, p.cur = some c → c ∉ p.out) (n : Nat) :
    roleCount (p.submitImmediate k release) n = roleCount p n + if k = n then 1 else 0 := by
  cases release with
  | true => exact Safety.submitImmediate_roles p k n
  | false =>
    unfold Pool.submitImmediate
    cases cur : p.cur with
    | none => simp [roleCount, cur, List.count_append, List.count_cons]; omega
    | some c =>
      simp [roleCount, cur, Safety.count_outInsert _ _ _ (notOut c cur), List.count_append, List.count_cons]; omega

theorem pend_submitImmediate (p : Pool) (k : Nat) (release : Bool) : (p.submitImmediate k release).pend = [] := rfl

/-- `submit` of an outstanding handle (R715): the deferred or the immediate hand-over of the pool without it. -/
theorem submit_cases {p q : Pool} {colour deferred release coloured : Bool} {k : Nat}
    (e : p.submit colour k deferred release coloured = some q) :
    k ∈ p.out ∧ (q = (Safety.handedOver p colour k coloured).submitDeferred k ∨
      q = (Safety.handedOver p colour k coloured).submitImmediate k release) := by
  rw [Safety.submit_eq] at e
  split at e
  next out =>
    refine ⟨by simpa using out, ?_⟩
    cases e
    split
    · exact .inl rfl
    · exact .inr rfl
  next => nomatch e

theorem submit_keeps {p q : Pool} {colour deferred release coloured : Bool} {k : Nat} (one : ∀ n, roleCount p n ≤ 1)
    (pend : p.pend.length ≤ Config.maxPend) (e : p.submit colour k deferred release coloured = some q) :
    (∀ n, roleCount q n = roleCount p n) ∧ q.pend.length ≤ Config.maxPend := by
  obtain ⟨out, deferredOr⟩ := submit_cases e
  have handed := roleCount_handedOver colour coloured (one k) out
  obtain rfl | rfl := deferredOr
  · obtain ⟨-, -, -, -, bound⟩ := Safety.submitDeferred_rest (Safety.handedOver p colour k coloured) k
    exact ⟨fun n => (Safety.submitDeferred_roles _ k n).trans (handed n), bound pend⟩
  · refine ⟨fun n => (roleCount_submitImmediate release (fun c cur => ?_) n).trans (handed n), ?_⟩
    · have shown : p.cur = some c := cur
      have notOut := not_mem_out (one c) (by simp [shown])
      exact fun mem => notOut (List.mem_of_mem_filter mem)
    · simp [pend_submitImmediate]

/-! ### Any sequence of operations (R707) -/

/-- The invariant of the pool alone: one role for each handle, at most `MAX_PEND` pending (R702, R707). -/
def RolesOk (cap : Nat) (p : Pool) : Prop := OneRoleEach cap p ∧ p.pend.length ≤ Config.maxPend

theorem RolesOk.le_one {cap : Nat} {p : Pool} (h : RolesOk cap p) (n : Nat) : roleCount p n ≤ 1 := by
  rw [(oneRoleEach_iff cap p).1 h.1 n]
  split <;> omega

theorem RolesOk.of_keeps {cap : Nat} {p q : Pool} (h : RolesOk cap p) (roles : ∀ n, roleCount q n = roleCount p n)
    (pend : q.pend.length ≤ Config.maxPend) : RolesOk cap q :=
  ⟨(oneRoleEach_iff cap q).2 fun n => (roles n).trans ((oneRoleEach_iff cap p).1 h.1 n), pend⟩

theorem RolesOk.callPool {cap : Nat} {colour : Bool} {p q : Pool} {c : PoolCall} (h : RolesOk cap p)
    (e : callPool colour p c = some q) : RolesOk cap q := by
  cases c with
  | acquire =>
    obtain ⟨⟨k, q⟩, acquired, rfl⟩ := Option.map_eq_some_iff.1 e
    obtain ⟨roles, pend⟩ := acquireFree_keeps (h.le_one k) acquired
    exact h.of_keeps roles (pend.trans h.2)
  | submit k deferred release coloured =>
    obtain ⟨roles, pend⟩ := submit_keeps h.le_one h.2 e
    exact h.of_keeps roles pend
  | blank toBlack => cases e; exact h.of_keeps (roleCount_blank p toBlack) (Nat.zero_le _)
  | current => cases e; exact h.of_keeps (roleCount_promote p) ((pend_promote_le p).trans h.2)
  | advance => cases e; exact h.of_keeps (roleCount_advanceFrame p) ((pend_advanceFrame_le p).trans h.2)

theorem RolesOk.callsPool {cap : Nat} {colour : Bool} {calls : List PoolCall} {p q : Pool} (h : RolesOk cap p)
    (e : callsPool colour calls p = some q) : RolesOk cap q := by
  induction calls generalizing p with
  | nil => cases e; exact h
  | cons c cs ih =>
    obtain ⟨u, first, rest⟩ := Option.bind_eq_some_iff.1 e
    exact ih (h.callPool first) rest

/-- Settles O55: each operation keeps how often a handle has a role, so any sequence does; the counts and the members are read off
the permutation. -/
theorem poolRolesStayDisjoint : Obligations.PoolRolesStayDisjoint := by
  intro cap colour calls p q one pend e
  obtain ⟨roles, bound⟩ := RolesOk.callsPool ⟨one, pend⟩ e
  refine ⟨roles, bound, ?_, fun h => ?_⟩
  · have length := List.Perm.length_eq roles
    simp only [List.length_append, List.length_range] at length
    exact length
  · have mem := (List.Perm.mem_iff roles (a := h)).symm
    simpa [or_assoc] using mem

/-! ### The operations case by case -/

theorem mem_outInsert (l : List Nat) (h k : Nat) : k ∈ outInsert h l ↔ k = h ∨ k ∈ l := by
  induction l with
  | nil => simp [outInsert]
  | cons a rest ih =>
    unfold outInsert
    split_ifs with less same
    · simp
    · simp [same]
    · simp [ih, or_left_comm]

/-- With nothing outstanding and a capacity of three or more a buffer is free, previous or current (R712). -/
theorem acquireFree_isSome {cap : Nat} {p : Pool} (roles : OneRoleEach cap p) (pend : p.pend.length ≤ 2) (out : p.out = [])
    (three : 3 ≤ cap) : p.acquireFree.isSome := by
  cases e : p.acquireFree with
  | some got => rfl
  | none =>
    obtain ⟨free, prev, cur⟩ := Safety.acquireFree_none e
    have length := List.Perm.length_eq roles
    simp [free, prev, cur, out] at length
    omega

/-- `submit` of an outstanding handle while it may be deferred (R716). -/
theorem submit_deferred {p : Pool} {h : Nat} (colour release coloured : Bool) (out : h ∈ p.out) (shown : p.blanked = false) :
    p.submit colour h true release coloured = some ((Safety.handedOver p colour h coloured).submitDeferred h) := by
  simp [Safety.submit_eq, out, shown]

/-- `submit` of an outstanding handle that is shown at once (R717). -/
theorem submit_immediate {p : Pool} {h : Nat} {deferred : Bool} (colour release coloured : Bool) (out : h ∈ p.out)
    (now : deferred = false ∨ p.blanked = true) :
    p.submit colour h deferred release coloured = some ((Safety.handedOver p colour h coloured).submitImmediate h release) := by
  have notDeferred : (deferred && !p.blanked) = false := by obtain rfl | e := now <;> simp [*]
  simp [Safety.submit_eq, out, notDeferred]

/-- Settles O56: the operations take the first role that has a buffer; the hand-over is then read off its definition. -/
theorem bufferIsAcquiredAndSubmitted : Obligations.BufferIsAcquiredAndSubmitted := by
  refine ⟨fun p => ⟨?free, ?prev, ?promoted, ?cur, ?empty⟩, fun cap p => acquireFree_isSome, mem_outInsert,
    fun p colour deferred release coloured h => ⟨?rejected, fun out => ⟨?append, ?evictOne, ?evictTwo, fun now => ?immediate⟩⟩⟩
  case free => intro h rest free; rw [Pool.acquireFree, free]
  case prev => intro h free prev; rw [Pool.acquireFree, free, prev]
  case promoted => intro h n rest free prev cur pend; simp [Pool.acquireFree, free, prev, cur, pend]
  case cur => intro h free prev cur pend; simp [Pool.acquireFree, free, prev, cur, pend]
  case empty => intro free prev cur; rw [Pool.acquireFree, free, prev, cur]
  case rejected => intro notOut; simp [Safety.submit_eq, notOut]
  case append =>
    rintro rfl shown room
    simp [submit_deferred _ _ _ out shown, Pool.submitDeferred, Safety.handedOver, room, Config.maxPend]
  case evictOne =>
    rintro a b rfl shown pend progressive
    simp [submit_deferred _ _ _ out shown, Pool.submitDeferred, Safety.handedOver, pend, progressive, Config.maxPend]
  case evictTwo =>
    rintro a b rfl shown pend interlaced
    simp [submit_deferred _ _ _ out shown, Pool.submitDeferred, Safety.handedOver, pend, interlaced, Config.maxPend]
  case immediate =>
    rw [submit_immediate _ _ _ out now]
    refine ⟨fun cur => ?_, fun k cur released => ?_, fun k cur kept => ?_⟩
    · simp [Pool.submitImmediate, Safety.handedOver, cur]
    · simp [Pool.submitImmediate, Safety.handedOver, cur, released]
    · simp [Pool.submitImmediate, Safety.handedOver, cur, kept]

theorem promote_empty {p : Pool} (pend : p.pend = []) : p.promote = p := by rw [Pool.promote, pend]

theorem promote_cons {p : Pool} {h : Nat} {rest : List Nat} (pend : p.pend = h :: rest) :
    p.promote =
      if p.interlace then
        { p with
          free := p.free ++ p.prev.toList, prev := p.cur, cur := some h, shown := h, pend := rest
          frameParity := !p.frameParity }
      else { p with free := p.free ++ p.cur.toList, cur := some h, shown := h, pend := rest } := by
  rw [Pool.promote, pend]
  cases p.interlace <;> rfl

/-- `current()` under a free lock: the promotion, and its answer (R719, R720). -/
theorem renOp_current {s : State} (free : s.pool.lock = .free) :
    s.renOp .current =
      .next { s with pool := s.pool.promote, renView := some (s.pool.promote.view s.cfg.colour) } := by
  have lock : s.pool.promote.lock = .free := by
    rw [← free]
    unfold Pool.promote
    split
    · rfl
    · split <;> rfl
  simp only [State.renOp, Safety.locked_ok _ _ _ free, Safety.promote_lock, unlock_free lock]
  rfl

theorem view_handle_some {p : Pool} {h : Nat} (colour : Bool) (cur : p.cur = some h) : (p.view colour).handle = h := by
  rw [Pool.view, cur, Option.getD_some]

theorem view_handle_none {p : Pool} (colour : Bool) (cur : p.cur = none) : (p.view colour).handle = p.shown := by
  rw [Pool.view, cur, Option.getD_none]

/-- `advance_frame()` interlaced (R726). -/
theorem advanceFrame_interlaced {p : Pool} (interlaced : p.interlace = true) :
    p.advanceFrame =
      if p.pend.length = 2 then p.promote
      else if p.noSkip = false ∧ p.pend ≠ [] then { p.promote with noSkip := true }
      else { p.redisplay with noSkip := false } := by
  simp [Pool.advanceFrame, interlaced, Config.maxPend]

/-- Settles O57: the promotion, the display again and the choice between them (R719, R726), each by its cases. -/
theorem displayedBufferIsChosen : Obligations.DisplayedBufferIsChosen := by
  refine ⟨fun p black => rfl, fun p => promote_empty, fun p h rest pend => ⟨?progressive, ?interlaced⟩, fun s free => ?current,
    fun p => ⟨?advance, ?full, ?skip, ?again⟩⟩
  case progressive => intro off; simp [promote_cons pend, off]
  case interlaced => intro on; simp [promote_cons pend, on]
  case current =>
    exact ⟨_, _, renOp_current free, rfl, fun h cur => view_handle_some _ cur, fun cur => view_handle_none _ cur, rfl, rfl, rfl⟩
  case advance => intro off; simp [Pool.advanceFrame, off]
  case full => intro on two; rw [advanceFrame_interlaced on, if_pos two]
  case skip =>
    intro on one clear
    have waiting : p.pend ≠ [] := by rintro empty; simp [empty] at one
    rw [advanceFrame_interlaced on, if_neg (by omega), if_pos ⟨clear, waiting⟩]
  case again =>
    intro on few stay
    have redisplayed : p.advanceFrame = { p.redisplay with noSkip := false } := by
      rw [advanceFrame_interlaced on, if_neg (by omega), if_neg]
      rintro ⟨clear, waiting⟩
      obtain set | empty := stay
      · simp [set] at clear
      · exact waiting empty
    exact ⟨fun prev => by simp [redisplayed, Pool.redisplay, prev], fun h prev => by simp [redisplayed, Pool.redisplay, prev]⟩

end Sys2Proof.Proofs
end

section
/-! The snapshot (R770 to R777): where each field stands in the 102 bytes, what a load reads at an offset, and the obligations about
the layout and the round trip. -/

namespace Sys2Proof.Proofs

open Machine Claims

/-! ### Multi-byte fields (R770) -/

theorem toNat_append_byte {n : Nat} (h : BitVec n) (l : Byte) : (h ++ l).toNat = l.toNat + 256 * h.toNat := by
  rw [BitVec.toNat_append, ← Nat.shiftLeft_add_eq_or_of_lt l.isLt, Nat.shiftLeft_eq]
  omega

theorem toNat_wordAt (bs : List Byte) (k : Nat) :
    (wordAt bs k).toNat = (bs.getD k 0).toNat + 256 * (bs.getD (k + 1) 0).toNat :=
  toNat_joinBytes ..

theorem toNat_longAt (bs : List Byte) (k : Nat) :
    (longAt bs k).toNat = (bs.getD k 0).toNat + 256 * (bs.getD (k + 1) 0).toNat +
      65536 * ((bs.getD (k + 2) 0).toNat + 256 * (bs.getD (k + 3) 0).toNat) := by
  simp only [longAt, toNat_append_byte, byteAt]
  omega

/-- The four bytes of `le32`, put together again. -/
theorem append_le32 (w : BitVec 32) :
    w.extractLsb' 24 8 ++ w.extractLsb' 16 8 ++ w.extractLsb' 8 8 ++ w.extractLsb' 0 8 = w := by
  apply BitVec.eq_of_toNat_eq
  simp only [toNat_append_byte, BitVec.extractLsb'_toNat, Nat.shiftRight_eq_div_pow]
  have := w.isLt
  omega

/-! ### Flags and codes (R771, R773, R774, R777) -/

/-- A flag as a 32-bit field (R773). -/
def flagLong (b : Bool) : BitVec 32 := if b then 1 else 0

theorem toNat_flagLong (b : Bool) : (flagLong b).toNat = b.toNat := by cases b <;> rfl

theorem toNat_flagByte (b : Bool) : (flagByte b).toNat = b.toNat := by cases b <;> rfl

theorem toNat_imByte (c : Cpu) : (imByte c.im).toNat = valueOf c .im := by
  cases im : c.im <;> simp [valueOf, im, imByte]

theorem toNat_pfxByte (p : Pfx) :
    (pfxByte p).toNat = match p with
      | .none => 0
      | .ix => 1
      | .iy => 2 := by
  cases p <;> rfl

theorem toNat_blankByte (colour : BlankColour) : (blankByte colour).toNat = if colour = .white then 1 else 0 := by
  cases colour <;> rfl

/-- A flag is bit 0 of its first byte, so of the whole field. -/
theorem flagAt_of_longAt {bs : List Byte} {k : Nat} {b : Bool} (field : longAt bs k = flagLong b) : flagAt bs k = b := by
  have bit : flagAt bs k = (longAt bs k).getLsbD 0 := by
    simp only [flagAt, longAt, BitVec.getLsbD_append, Nat.zero_lt_succ, if_true]
  rw [bit, field]
  cases b <;> rfl

theorem flagAt_of_byteAt {bs : List Byte} {k : Nat} {b : Bool} (field : byteAt bs k = flagByte b) : flagAt bs k = b := by
  rw [flagAt, field]
  cases b <;> rfl

theorem getLsbD_zero_eq_decide (v : Byte) : v.getLsbD 0 = decide (v.toNat % 2 = 1) := by
  rw [BitVec.getLsbD, Nat.testBit_zero]

theorem toNat_flagAt (bs : List Byte) (k : Nat) : (flagAt bs k).toNat = (bs.getD k 0).toNat % 2 := by
  rw [flagAt, getLsbD_zero_eq_decide, byteAt]
  obtain even | odd := Nat.mod_two_eq_zero_or_one (bs.getD k 0).toNat
  · rw [even]; rfl
  · rw [odd]; rfl

theorem imOfByte_eq (v : Byte) :
    imOfByte v = if v.toNat % 4 = 1 then .im1 else if v.toNat % 4 = 2 then .im2 else .im0 := by
  unfold imOfByte
  split <;> simp_all

theorem pfxOfByte_eq (v : Byte) : pfxOfByte v = if v.toNat = 1 then .ix else if v.toNat = 2 then .iy else .none := by
  unfold pfxOfByte
  split <;> simp_all

theorem imOfByte_imByte (m : IntMode) : imOfByte (imByte m) = m := by cases m <;> rfl

theorem pfxOfByte_pfxByte (p : Pfx) : pfxOfByte (pfxByte p) = p := by cases p <;> rfl

theorem blankOfByte_blankByte (colour : BlankColour) : blankOfByte (blankByte colour) = colour := by cases colour <;> rfl

theorem blankOfByte_white_iff (v : Byte) : blankOfByte v = .white ↔ v.toNat % 2 = 1 := by
  rw [blankOfByte, getLsbD_zero_eq_decide]
  simp

/-! ### Where the fields stand (R771 to R774) -/

/-- The parts one after the other, in the order of their offsets (R770). -/
theorem snapBytes_eq (s : State) :
    snapBytes s = snapRegisters s.cpu ++ (snapRaster s ++ (snapSync s.ula ++ snapPool s.pool)) := by
  simp only [snapBytes, List.append_assoc]

/-- The pool metadata begins at offset 98 (R774). -/
theorem length_beforePool (s : State) : (snapRegisters s.cpu ++ snapRaster s ++ snapSync s.ula).length = 98 := by
  simp [snapRegisters, snapRaster, snapSync, flag32, le16, le32]

theorem length_snapBytes (s : State) : (snapBytes s).length = 102 := by
  rw [snapBytes, List.length_append, length_beforePool]
  rfl

theorem byteAt_append_length (front rest : List Byte) (k : Nat) : byteAt (front ++ rest) (k + front.length) = byteAt rest k := by
  rw [byteAt, List.getD_append_right _ _ _ _ (Nat.le_add_left ..), Nat.add_sub_cancel, byteAt]

theorem longAt_append_length (front rest : List Byte) (k : Nat) : longAt (front ++ rest) (k + front.length) = longAt rest k := by
  simp only [longAt, Nat.add_right_comm k, byteAt_append_length]

/-- The register file takes 30 bytes (R771). -/
theorem longAt_snapRegisters_append (c : Cpu) (rest : List Byte) (k : Nat) :
    longAt (snapRegisters c ++ rest) (k + 30) = longAt rest k :=
  longAt_append_length (snapRegisters c) rest k

theorem longAt_le32_append_zero (w : BitVec 32) (rest : List Byte) : longAt (le32 w ++ rest) 0 = w := append_le32 w

theorem longAt_le32_append (w : BitVec 32) (rest : List Byte) (k : Nat) : longAt (le32 w ++ rest) (k + 4) = longAt rest k :=
  longAt_append_length (le32 w) rest k

theorem flag32_eq (b : Bool) : flag32 b = le32 (flagLong b) := rfl

theorem byteAt_snapBytes_pool (s : State) (k : Nat) : byteAt (snapBytes s) (k + 98) = byteAt (snapPool s.pool) k := by
  rw [← length_beforePool s]
  exact byteAt_append_length _ _ k

theorem wordAt_snapRegisters_append (c : Cpu) (rest : List Byte) :
    wordAt (snapRegisters c ++ rest) 20 = c.ix ∧ wordAt (snapRegisters c ++ rest) 22 = c.iy ∧
      wordAt (snapRegisters c ++ rest) 24 = c.sp ∧ wordAt (snapRegisters c ++ rest) 26 = c.pc :=
  ⟨joinBytes_hi_lo c.ix, joinBytes_hi_lo c.iy, joinBytes_hi_lo c.sp, joinBytes_hi_lo c.pc⟩

theorem longAt_snapBytes_raster (s : State) :
    longAt (snapBytes s) 30 = BitVec.ofNat 32 s.ts ∧ longAt (snapBytes s) 34 = s.ula.rasterX ∧
      longAt (snapBytes s) 38 = s.ula.rasterY := by
  simp only [snapBytes_eq, snapRaster, List.append_assoc, longAt_snapRegisters_append, longAt_le32_append,
    longAt_le32_append_zero, and_self]

theorem longAt_snapBytes_sync (s : State) :
    longAt (snapBytes s) 42 = s.ula.row.setWidth 32 ∧ longAt (snapBytes s) 46 = s.ula.syncLen ∧
      longAt (snapBytes s) 50 = s.ula.vsX ∧ longAt (snapBytes s) 54 = s.ula.vsY ∧
      longAt (snapBytes s) 66 = BitVec.ofNat 32 s.ula.hsCounter ∧ longAt (snapBytes s) 90 = s.ula.l2Len := by
  simp only [snapBytes_eq, snapRaster, snapSync, flag32_eq, List.append_assoc, longAt_snapRegisters_append, longAt_le32_append,
    longAt_le32_append_zero, and_self]

theorem longAt_snapBytes_flags (s : State) :
    longAt (snapBytes s) 58 = flagLong s.ula.hsyncState ∧ longAt (snapBytes s) 62 = flagLong s.ula.vsyncState ∧
      longAt (snapBytes s) 70 = flagLong s.ula.nmiGenOn ∧ longAt (snapBytes s) 74 = flagLong s.ula.nmiPending ∧
      longAt (snapBytes s) 78 = flagLong s.ula.l1 ∧ longAt (snapBytes s) 82 = flagLong s.ula.l2 ∧
      longAt (snapBytes s) 86 = flagLong s.ula.l3 ∧ longAt (snapBytes s) 94 = flagLong s.ula.rowHold := by
  simp only [snapBytes_eq, snapRaster, snapSync, flag32_eq, List.append_assoc, longAt_snapRegisters_append, longAt_le32_append,
    longAt_le32_append_zero, and_self]

/-- A signed 32-bit field, from its number (R772, R773). -/
theorem toInt_long (w : BitVec 32) : w.toInt = if w.toNat < 2 ^ 31 then (w.toNat : Int) else w.toNat - 2 ^ 32 := by
  rw [BitVec.toInt_eq_toNat_cond]
  split <;> split <;> omega

theorem toNat_row (row : BitVec 3) : (row.setWidth 32).toNat = row.toNat := by
  rw [BitVec.toNat_setWidth, Nat.mod_eq_of_lt (by omega)]

/-- Settles O58: the fields of one byte stand at their offsets as they are, the others as the numbers of their bytes. -/
theorem snapshotLayout : Obligations.SnapshotLayout := by
  intro s at1 at2 at4 c u
  have word (k : Nat) : at2 k = (wordAt (snapBytes s) k).toNat := (toNat_wordAt _ k).symm
  have long (k : Nat) : at4 k = (longAt (snapBytes s) k).toNat := (toNat_longAt _ k).symm
  obtain ⟨ix, iy, sp, pc⟩ := wordAt_snapRegisters_append s.cpu (snapRaster s ++ (snapSync s.ula ++ snapPool s.pool))
  rw [← snapBytes_eq] at ix iy sp pc
  obtain ⟨ts, rasterX, rasterY⟩ := longAt_snapBytes_raster s
  obtain ⟨row, syncLen, vsX, vsY, hsCounter, l2Len⟩ := longAt_snapBytes_sync s
  obtain ⟨hsync, vsync, genOn, pending, l1, l2, l3, hold⟩ := longAt_snapBytes_flags s
  have byte (k : Nat) : at1 k = (byteAt (snapBytes s) k).toNat := rfl
  have pool (k : Nat) : at1 (k + 98) = (byteAt (snapPool s.pool) k).toNat := by rw [byte, byteAt_snapBytes_pool]
  have small {n : Nat} (h : n < 2 ^ 32) : (BitVec.ofNat 32 n).toNat = n := by rw [BitVec.toNat_ofNat, Nat.mod_eq_of_lt h]
  refine ⟨length_snapBytes s, ?bytes, ?iff1, ?iff2, ?im, ?words, ?r, ?pfx, ?ts, ?signed, ?row, ?syncLen, ?hsCounter, ?l2Len,
    ?flags, ?pool, ?blank⟩
  case bytes =>
    dsimp only [at1]
    rw [snapBytes_eq]
    rfl
  case iff1 => rw [byte, snapBytes_eq]; exact toNat_flagByte s.cpu.iff1
  case iff2 => rw [byte, snapBytes_eq]; exact toNat_flagByte s.cpu.iff2
  case im => rw [byte, snapBytes_eq]; exact toNat_imByte s.cpu
  case r => rw [byte, snapBytes_eq]; rfl
  case pfx => rw [byte, snapBytes_eq]; exact toNat_pfxByte s.cpu.pfx
  case words => simp [word, ix, iy, sp, pc, c]
  case ts => intro below; rw [long, ts, small below]
  case signed => simp only [List.map_cons, List.map_nil, long, rasterX, rasterY, vsX, vsY, toInt_long, u]
  case row => rw [long, row, toNat_row]
  case syncLen => rw [long, syncLen]
  case hsCounter => intro below; rw [long, hsCounter, small below]
  case l2Len => rw [long, l2Len]
  case flags => simp only [List.map_cons, List.map_nil, long, hsync, vsync, genOn, pending, l1, l2, l3, hold, toNat_flagLong, u]
  case pool =>
    have blanked : at1 98 = s.pool.blanked.toNat := (pool 0).trans (toNat_flagByte _)
    have interlace : at1 100 = s.pool.interlace.toNat := (pool 2).trans (toNat_flagByte _)
    have parity : at1 101 = s.pool.frameParity.toNat := (pool 3).trans (toNat_flagByte _)
    simp only [List.map_cons, List.map_nil, blanked, interlace, parity]
  case blank => exact (pool 1).trans (toNat_blankByte _)

/-! ### The load of a saved snapshot (R776, R777) -/

theorem loadCpu_snapRegisters_append (c : Cpu) (rest : List Byte) :
    loadCpu (snapRegisters c ++ rest) = { c with halted := false, eiDelay := false } := by
  obtain ⟨ix, iy, sp, pc⟩ := wordAt_snapRegisters_append c rest
  have iff1 : flagAt (snapRegisters c ++ rest) 17 = c.iff1 := flagAt_of_byteAt rfl
  have iff2 : flagAt (snapRegisters c ++ rest) 18 = c.iff2 := flagAt_of_byteAt rfl
  have mode : imOfByte (byteAt (snapRegisters c ++ rest) 19) = c.im := imOfByte_imByte c.im
  have none : pfxOfByte (byteAt (snapRegisters c ++ rest) 29) = c.pfx := pfxOfByte_pfxByte c.pfx
  rw [loadCpu, ix, iy, sp, pc, iff1, iff2, mode, none]
  rfl

theorem loadUla_snapBytes {s : State} (small : s.ula.hsCounter < 2 ^ 32) (u : Ula) :
    loadUla u (snapBytes s) = { s.ula with intGen := u.intGen } := by
  obtain ⟨-, rasterX, rasterY⟩ := longAt_snapBytes_raster s
  obtain ⟨row, syncLen, vsX, vsY, hsCounter, l2Len⟩ := longAt_snapBytes_sync s
  obtain ⟨hsync, vsync, genOn, pending, l1, l2, l3, hold⟩ := longAt_snapBytes_flags s
  have row : (longAt (snapBytes s) 42).setWidth 3 = s.ula.row := by
    rw [row]
    exact BitVec.setWidth_setWidth_of_le _ (by omega)
  have hsCounter : (longAt (snapBytes s) 66).toNat = s.ula.hsCounter := by
    rw [hsCounter, BitVec.toNat_ofNat, Nat.mod_eq_of_lt small]
  rw [loadUla, rasterX, rasterY, row, syncLen, vsX, vsY, hsCounter, l2Len, flagAt_of_longAt hsync, flagAt_of_longAt vsync,
    flagAt_of_longAt genOn, flagAt_of_longAt pending, flagAt_of_longAt l1, flagAt_of_longAt l2, flagAt_of_longAt l3,
    flagAt_of_longAt hold]

theorem loadPool_snapBytes (s : State) : loadPool s.pool (snapBytes s) = s.pool := by
  have blanked : flagAt (snapBytes s) 98 = s.pool.blanked := flagAt_of_byteAt (byteAt_snapBytes_pool s 0)
  have interlace : flagAt (snapBytes s) 100 = s.pool.interlace := flagAt_of_byteAt (byteAt_snapBytes_pool s 2)
  have parity : flagAt (snapBytes s) 101 = s.pool.frameParity := flagAt_of_byteAt (byteAt_snapBytes_pool s 3)
  have colour : blankOfByte (byteAt (snapBytes s) 99) = s.pool.blankColour :=
    (congrArg blankOfByte (byteAt_snapBytes_pool s 1)).trans (blankOfByte_blankByte _)
  rw [loadPool, blanked, interlace, parity, colour]

/-- Between two steps the fields loaded from a snapshot just saved are those of the state, but for the two cleared flags. -/
theorem loadFields_snapBytes {s : State} (inside : s.ts < s.cfg.fieldModulus)
    (modulus : s.cfg.fieldModulus ≤ 2 ^ 32) (small : s.ula.hsCounter < 2 ^ 32)
    (gen : s.ula.intGen = intGenOf s.cfg s.ula.syncFields) :
    s.loadFields (snapBytes s) = { s with cpu := { s.cpu with halted := false, eiDelay := false } } := by
  have cpu : loadCpu (snapBytes s) = { s.cpu with halted := false, eiDelay := false } := by
    rw [snapBytes_eq]
    exact loadCpu_snapRegisters_append s.cpu _
  have ts : (longAt (snapBytes s) 30).toNat % s.cfg.fieldModulus = s.ts := by
    rw [(longAt_snapBytes_raster s).1, BitVec.toNat_ofNat, Nat.mod_eq_of_lt (inside.trans_le modulus), Nat.mod_eq_of_lt inside]
  rw [State.loadFields, cpu, ts, loadUla_snapBytes small, loadPool_snapBytes, State.refreshIntGen, State.setUla]
  dsimp only
  rw [← gen]

/-! ### The obligation (R775 to R777) -/

theorem load_of_length {s : State} {bs : List Byte} (long : 102 ≤ bs.length) :
    s.load bs = { s.loadFields bs with hostResult := .loaded } := if_pos long

/-- Settles O59: the round trip reads every field back; a load reads each field at its offset, reduced. -/
theorem snapshotRoundTrip : Obligations.SnapshotRoundTrip := by
  refine ⟨fun s _ inside modulus small gen => ?roundTrip, fun s n => ?save, fun s bs short => if_neg (Nat.not_le.2 short),
    fun s bs long => ?load⟩
  case roundTrip => rw [load_of_length (length_snapBytes s).ge, loadFields_snapBytes inside modulus small gen]
  case save =>
    have full : (if 102 ≤ n then HostResult.saved (snapBytes s) else .saveFailed) =
        if n < 102 then .saveFailed else .saved (snapBytes s) := by
      split <;> split <;> first | rfl | omega
    exact congrArg (fun r => { s with hostResult := r }) full
  case load =>
    rw [load_of_length long]
    intro t c u at1 at2 at4
    have word (k : Nat) : (wordAt bs k).toNat = at2 k := toNat_wordAt bs k
    have dword (k : Nat) : (longAt bs k).toNat = at4 k := toNat_longAt bs k
    refine ⟨rfl, rfl, rfl, rfl, rfl, ?words, ?longs, dword 66, ?flags, blankOfByte_white_iff _, imOfByte_eq _,
      pfxOfByte_eq _, ?ts, ?row⟩
    case words => simp only [List.map_cons, List.map_nil, ← word]; rfl
    case longs => simp only [List.map_cons, List.map_nil, ← dword]; rfl
    case flags => simp only [List.map_cons, List.map_nil, at1, ← toNat_flagAt]; rfl
    case ts => rw [← dword]; rfl
    case row =>
      have low : ((longAt bs 42).setWidth 3).toNat = at1 42 % 8 := by
        rw [BitVec.toNat_setWidth, toNat_longAt]
        dsimp only [at1]
        omega
      exact low

end Sys2Proof.Proofs
end

section
/-! Power-on and the interrupt entries (R805 to R812, R830): the tests of power-on as inequalities, what an entry pushes, and the
obligations about them. -/

namespace Sys2Proof.Proofs

open Machine Claims

/-! ### The tests of power-on (R9, R10, R72, R830) -/

theorem poolCapOk_iff (c : Config) : Config.poolCapOk c = true ↔ 1 ≤ c.poolCap ∧ c.poolCap ≤ 4 := by
  simp only [Config.poolCapOk, Bool.and_eq_true, decide_eq_true_eq]
  rfl

theorem parametersOk_iff (c : Config) :
    Config.parametersOk c = true ↔
      23 < c.fieldModulus ∧ (0 < c.bufW ∧ 0 < c.bufH ∧ c.bufW ≤ 8 * c.stride) ∧
        (c.hsOffset < c.lineTs ∧ c.hsWidth < c.lineTs) ∧ 0 < c.hsWidth ∧ 0 < c.xPerT ∧ 0 < c.lineMax ∧
        0 < c.fieldMaxLines ∧ 0 < c.vsyncThreshold ∧ 0 < c.hsWidthB := by
  simp only [Config.parametersOk, Bool.and_eq_true, decide_eq_true_eq]
  omega

theorem pagesInside_iff (c : Config) (pt : PageTable) :
    Config.pagesInside c pt = true ↔ ¬∃ e ∈ pt.toList, c.physBytes < e.base + 1024 := by
  simp only [Config.pagesInside, List.all_eq_true, decide_eq_true_eq, not_exists, not_and, Nat.not_lt]
  rfl

theorem romProtected_iff (c : Config) (pt : PageTable) :
    Config.romProtected c pt = true ↔ ¬∃ e ∈ pt.toList, e.base < c.romBytes ∧ e.writable = true := by
  simp only [Config.romProtected, List.all_eq_true, Bool.not_eq_true', Bool.and_eq_false_imp, decide_eq_false_iff_not, not_exists,
    not_and]
  exact forall₂_congr fun _ _ => ⟨fun h low on => h on low, fun h on low => h low on⟩

/-- With nothing in a role to give, EMU's acquisition is the configuration error (R710, R830). -/
theorem acquireDraw_exhausted {s : State} (lock : s.pool.lock = .free) (quiet : s.renBetween = []) (free : s.pool.free = [])
    (prev : s.pool.prev = none) (cur : s.pool.cur = none) : s.acquireDraw = .fault (.configError .poolExhausted) := by
  have nothing : s.pool.acquireFree = none := by rw [Pool.acquireFree, free, prev, cur]
  simp only [State.acquireDraw, renTurn_quiet quiet, andThen_next, Safety.locked_ok _ _ _ lock, Safety.acquireFree_lock, nothing,
    Option.map_none]

/-- Settles O2: each test of power-on is one of the constraints; the outcome is that of the first test that fails. -/
theorem powerOnChecksItsParameters : Obligations.PowerOnChecksItsParameters := by
  refine ⟨fun c rom ram => ?_, fun s lock quiet free prev cur => acquireDraw_exhausted lock quiet free prev cur⟩
  intro capacity zero wrong outside writableRom
  have capTest : (!Config.poolCapOk c) = true ↔ ¬capacity := by
    rw [Bool.not_eq_true', ← Bool.not_eq_true, poolCapOk_iff]
  have parTest : (!Config.parametersOk c) = true ↔ wrong := by
    rw [Bool.not_eq_true', ← Bool.not_eq_true, parametersOk_iff]
    omega
  have pageTest : (!Config.pagesInside c c.ptInit || !Config.romProtected c c.ptInit) = true ↔ outside ∨ writableRom := by
    rw [Bool.or_eq_true, Bool.not_eq_true', Bool.not_eq_true', ← Bool.not_eq_true, ← Bool.not_eq_true, pagesInside_iff,
      romProtected_iff, not_not, not_not]
  clear_value capacity wrong outside writableRom
  have capPass (cap : capacity) : ¬(!Config.poolCapOk c) = true := by rwa [capTest, not_not]
  have parPass (par : ¬wrong) : ¬(!Config.parametersOk c) = true := by rwa [parTest]
  have pagePass (inside : ¬outside) (protect : ¬writableRom) :
      ¬(!Config.pagesInside c c.ptInit || !Config.romProtected c c.ptInit) = true := by
    rw [pageTest, not_or]
    exact ⟨inside, protect⟩
  unfold powerOn
  refine ⟨fun few _ _ _ _ => ?capacity, fun cap par _ _ _ => ?parameter, fun cap par page _ => ?page,
    fun cap par inside protect none => ?missing, fun fails => ?anyError, fun cap par inside protect image => ?starts⟩
  case capacity => rw [if_pos (capTest.2 few)]
  case parameter => rw [if_neg (capPass cap), if_pos (parTest.2 par)]
  case page => rw [if_neg (capPass cap), if_neg (parPass par), if_pos (pageTest.2 page)]
  case missing => rw [if_neg (capPass cap), if_neg (parPass par), if_neg (pagePass inside protect), none]
  case anyError =>
    split_ifs with few par page
    · exact ⟨_, rfl⟩
    · exact ⟨_, rfl⟩
    · exact ⟨_, rfl⟩
    · rw [capTest, not_not] at few
      rw [parTest] at par
      rw [pageTest, not_or] at page
      obtain ⟨inside, protect⟩ := page
      obtain rfl : rom = none := by simpa [few, par, inside, protect] using fails
      exact ⟨_, rfl⟩
  case starts =>
    obtain ⟨image, rfl⟩ := Option.isSome_iff_exists.1 image
    rw [if_neg (capPass cap), if_neg (parPass par), if_neg (pagePass inside protect)]
    exact ⟨_, rfl⟩

/-! ### The entries (R805, R809 to R812) -/

/-- A push, as a record: `SP` and the two bytes (R78). -/
theorem exists_push16 (s : State) (w : Word) :
    ∃ m, s.push16 w = { s with cpu := { s.cpu with sp := s.cpu.sp - 2 }, phys := m } ∧
      WroteTwo s m (s.cpu.sp - 1) (hiByte w) (s.cpu.sp - 2) (loByte w) := by
  refine ⟨_, ?_, wroteTwo_memWrite_memWrite s _ _ _ _⟩
  rw [State.push16_eq, State.memWrite_eq, State.memWrite_eq]
  rfl

theorem leaveHalt_eq (s : State) :
    s.leaveHalt = s.setCpu { s.cpu with halted := false, pc := if s.cpu.halted then s.cpu.pc + 1 else s.cpu.pc } := by
  unfold State.leaveHalt
  cases halted : s.cpu.halted with
  | true => rfl
  | false =>
    have same : { s.cpu with halted := false } = s.cpu := by rw [← halted]
    simp only [Bool.false_eq_true, if_false, same]
    rfl

/-- The push of an entry from the state with another raster record and register file, and what follows it. -/
theorem exists_enterHandler (s : State) (u : Ula) (c : Cpu) (target : State → Word) (cost : Nat) :
    ∃ m, WroteTwo s m (c.sp - 1) (hiByte c.pc) (c.sp - 2) (loByte c.pc) ∧
      ((s.setUla u).setCpu c).enterHandler target cost =
        { s with
          ula := u
          cpu := { c with sp := c.sp - 2, pc := target { s with ula := u, cpu := { c with sp := c.sp - 2 }, phys := m } }
          phys := m
          cycles := cost } := by
  obtain ⟨m, pushed, wrote⟩ := exists_push16 ((s.setUla u).setCpu c) c.pc
  refine ⟨m, wrote, ?_⟩
  rw [State.enterHandler, State.setCpu_cpu, pushed]
  rfl

theorem nmiEntry_eq (s : State) :
    s.nmiEntry =
      ((s.setUla { s.ula with nmiPending := false }).setCpu
          { s.cpu with
            halted := false, iff1 := false, eiDelay := false, r := incRefresh s.cpu.r
            pc := if s.cpu.halted then s.cpu.pc + 1 else s.cpu.pc }).enterHandler (fun _ => 0x0066) 11 := by
  rw [State.nmiEntry, leaveHalt_eq]
  rfl

/-- Settles O14: the entry leaves the `HALT`, and pushes. -/
theorem nmiEntryTaken : Obligations.NmiEntryTaken := by
  intro s pending pc
  have taken : s.stepCpu = .next s.nmiEntry := if_pos pending
  obtain ⟨m, wrote, entered⟩ := exists_enterHandler s _ _ _ _
  exact ⟨m, taken.trans (congrArg _ ((nmiEntry_eq s).trans entered)), wrote⟩

theorem intSample_iff (s : State) :
    s.intSample = true ↔
      s.cpu.iff1 = true ∧ s.cpu.eiDelay = false ∧ s.ula.intGen = true ∧
        ((s.cpu.r.toNat % 128 + 127) % 128) / 64 % 2 = 0 := by
  have bit : (s.cpu.r - 1).getLsbD 6 = false ↔ ((s.cpu.r.toNat % 128 + 127) % 128) / 64 % 2 = 0 := by
    rw [BitVec.getLsbD, Nat.testBit_eq_decide_div_mod_eq, decide_eq_false_iff_not, BitVec.toNat_sub,
      show (1 : Byte).toNat = 1 from rfl]
    omega
  simp only [State.intSample, Bool.and_eq_true, Bool.not_eq_true', and_assoc, bit]

theorem ulaIntAck_eq (s : State) :
    s.ulaIntAck = s.setUla (if s.cfg.machine = .ffVariant then { s.ula with l2 := true, l2Len := 0 } else s.ula) := by
  unfold State.ulaIntAck
  cases machine : s.cfg.machine <;> simp [State.setUla]

/-- The mode decides the handler's address and the cost (R810 to R812). -/
theorem intEntry_eq (s : State) :
    s.intEntry =
      ((s.setUla (if s.cfg.machine = .ffVariant then { s.ula with l2 := true, l2Len := 0 } else s.ula)).setCpu
          { s.cpu with
            halted := false, iff1 := false, iff2 := false, r := incRefresh s.cpu.r
            pc := if s.cpu.halted then s.cpu.pc + 1 else s.cpu.pc }).enterHandler
        (fun p => if s.cpu.im = .im2 then p.memRead16 (joinBytes p.cpu.i Config.intBus) else 0x0038)
        (if s.cpu.im = .im2 then 19 else 13) := by
  rw [State.intEntry, leaveHalt_eq, ulaIntAck_eq]
  cases s.cpu.im <;> rfl

/-- Settles O15: the sampled bit as a number; the entry leaves the `HALT`, acknowledges, and pushes. -/
theorem maskableInterruptEntered : Obligations.MaskableInterruptEntered := by
  refine ⟨intSample_iff, fun s notPending sampled => ?_⟩
  intro pc vector
  have taken : s.stepCpu = .next s.intEntry := by
    rw [State.stepCpu, if_neg (ne_true_of_eq_false notPending), if_pos sampled]
  obtain ⟨m, wrote, entered⟩ := exists_enterHandler s _ _ _ _
  exact ⟨_, taken.trans (congrArg _ ((intEntry_eq s).trans entered)), rfl, wrote, rfl, rfl, rfl⟩

end Sys2Proof.Proofs
end
